-- ==== Sys2Proof/Word.lean ====
section
/-! DEFINITION. The word types of the block (00_scope.md R7, R11): bytes, 16-bit addresses, 14-bit video addresses. -/

namespace Sys2Proof

/-- DATA_W: the data bus and every bank cell are 8 bits wide (R7, R21). -/
abbrev Byte := BitVec 8

/-- ADDR_W: a CPU address, and the lookup address of both logical spaces (R7, R37). -/
abbrev Addr := BitVec 16

/-- VID_AW: the address the video chip presents (R7, R71). -/
abbrev VAddr := BitVec 14

end Sys2Proof
end

