-- ==== Sys2Proof/Config.lean ====
section
/-! DEFINITION. What is fixed outside the block: the pin-level contract of the four external chips (00_scope.md R10,
30_encoding.md R67, 40_tick_engine.md R92), the OPEN parameters of construction (00_scope.md R7, 10_state.md R32), and the
free values the spec leaves open (00_scope.md R12 `draw()`, 93_implementation_defined.md). Every opaque constant here has no
body: nothing can be proved of its value. -/

namespace Sys2Proof

/-- The two values of the read/write line (R68). -/
inductive Rw where
  | rd
  | wr
deriving DecidableEq, Repr, Inhabited

/-- The shared pin word (10_state.md R19, 30_encoding.md R67), by its named fields. `other` is the CPU contract's 37 bits,
which the block passes through. -/
structure Pins where
  addr  : Addr
  data  : Byte
  rw    : Rw
  irq   : Bool
  nmi   : Bool
  other : BitVec 37
deriving DecidableEq, Repr, Inhabited

/-- A chip's opaque sub-state (R10, R20), coded as a natural number: the block never inspects it. -/
abbrev ChipState := Nat

/-- An audio sample: whatever the video chip produces, only ever copied (R29, D30), coded as a natural number. -/
abbrev Sample := Nat

/-- What an IO chip receives in a tick (R92): the address, the data bus as its step begins, the direction and its own chip
select; the input port ROW_PORT (R96); and the one level driven on every other port input bit and control input line (R95). -/
structure IocIn where
  addr    : Addr
  data    : Byte
  rw      : Rw
  cs      : Bool
  rowPort : Byte
  others  : Bool
deriving DecidableEq, Repr, Inhabited

/-- What an IO chip returns (R92): its data output, its interrupt output (1 = asserting), and its output port COL_PORT (R97). -/
structure IocOut where
  data   : Byte
  irqOut : Bool
  colOut : Byte
deriving DecidableEq, Repr, Inhabited

/-- What the video chip receives (R92, R99). -/
structure VicIn where
  addr : Addr
  data : Byte
  rw   : Rw
  cs   : Bool
deriving DecidableEq, Repr, Inhabited

/-- What the video chip returns (R99, R102). -/
structure VicOut where
  data        : Byte
  sampleReady : Bool
  sample      : Sample
deriving DecidableEq, Repr, Inhabited

/-- The fetch capability given to the video chip (R52, R99): the answer to its n-th fetch of the tick, at an address. The
ordinal keeps the free bits of two fetches apart. -/
abbrev FetchPort := Nat → Addr → BitVec 16

/-- The external agents (R10): each chip's initial state, its total and deterministic tick, and its reset. -/
structure Chips where
  cpuInit   : ChipState
  cpuTick   : ChipState → Pins → ChipState × Pins
  cpuReset  : ChipState → ChipState
  ioc1Init  : ChipState
  ioc1Tick  : ChipState → IocIn → ChipState × IocOut
  ioc1Reset : ChipState → ChipState
  ioc2Init  : ChipState
  ioc2Tick  : ChipState → IocIn → ChipState × IocOut
  ioc2Reset : ChipState → ChipState
  vicInit   : ChipState
  vicTick   : ChipState → VicIn → FetchPort → ChipState × VicOut
  vicReset  : ChipState → ChipState
deriving Inhabited

/-- PIN_RESET (D22): the pin-word fields after construction and RESET, other than irq and nmi. -/
structure PinReset where
  addr  : Addr
  data  : Byte
  rw    : Rw
  other : BitVec 37
deriving DecidableEq, Repr, Inhabited

/-- The OPEN parameters of construction (R7, R32, 92_eei_decisions.md). `vicSel` lists the addresses at which VIC_SEL holds
(D2): only those inside the I/O window count (R88). `debugHook` says that a debug callback, with its stop flag, was given.
KBD_HOLD_US is 0 where nothing is said (D24). The sample rate and the volume are parameters that no rule reads (R32, N16; log
26). -/
structure Params where
  vicSel     : List Addr
  expPresent : Vector Bool 4
  kbdHoldUs  : Nat := 0
  sampleRate : Nat
  volume     : Nat
  audioCap   : Nat
  audioMax   : Nat
  debugHook  : Bool
  pinReset   : PinReset
deriving DecidableEq, Repr, Inhabited

/-- The external chips (R10). -/
opaque Config.chips : Chips

/-- The audio capacity is one that construction admits: 1 ≤ AUDIO_CAP ≤ AUDIO_MAX (R7, D30). -/
abbrev Params.Admitted (p : Params) : Prop := 1 ≤ p.audioCap ∧ p.audioCap ≤ p.audioMax

/-- Parameters with an admitted audio capacity: the given ones where theirs is admitted (`Params.bounded_of_admitted`), and
otherwise the nearest capacity in 1 .. AUDIO_MAX, AUDIO_MAX itself at least 1. -/
def Params.bounded (p : Params) : Params :=
  { p with audioCap := max 1 (min p.audioCap p.audioMax), audioMax := max 1 p.audioMax }

/-- Any parameters at all (log 8). -/
opaque Config.freeParams : Params

/-- The parameters the machine of `State.reset` was constructed with: any that construction admits (R7, D30; log 8). -/
def Config.params : Params := Config.freeParams.bounded

/-- What a bank cell that nothing has written holds, by its key (`cellKey`): the construction-time draw of a RAM cell, the
image's byte of a ROM cell (10_state.md R21, R22, D21; log 7). -/
opaque Config.powerOn : Nat → Byte

/-- `draw()` (R12): an unconstrained byte, by the value of the draw counter and an index within that draw (log 6). -/
opaque Config.draw : Nat → Nat → Byte

/-- The externally owned stopped flag after an instrumented tick, by the draw counter (R32, R166, D32). -/
opaque Config.stopped : Nat → Bool

/-- The audio buffer's contents at construction, a draw per entry (R35, D22). -/
opaque Config.audioInit : Nat → Sample

end Sys2Proof
end

