-- ==== Sys2Proof/Syntax.lean ====
section
/-! DEFINITION. The operations of the block as syntax: one constructor of `Instr` per row of spec/opcode_table.json
(30_encoding.md R66), and the encoded form in which they arrive, `Frame` (30_encoding.md R65). -/

namespace Sys2Proof

/-- The two logical address spaces (20_memory.md R37). -/
inductive Space where
  | cpu
  | vid
deriving DecidableEq, Repr, Inhabited

/-- A region's right (10_state.md R24). -/
inductive Access where
  | ro
  | rw
deriving DecidableEq, Repr, Inhabited

/-- A region's layer: layer 0 overlays layer 1 (10_state.md R24, 00_scope.md R14). -/
inductive Layer where
  | l0
  | l1
deriving DecidableEq, Repr, Inhabited

/-- EXEC's mode (30_encoding.md R73): bit 0 clear is free-run, set is instrumented. -/
inductive ExecMode where
  | freeRun
  | instrumented
deriving DecidableEq, Repr, Inhabited

/-- One operation of the block. The BUS rows carry the 16-bit address the CPU drives and, on a write, its data byte
(41_bus_transactions.md); the VF rows the 14-bit video address; the HOST rows the fields and operands of R73. -/
inductive Instr where
  -- BUS: CPU-space memory classes below the I/O window (R105 to R114)
  | rdZp (a : Addr)
  | wrZp (a : Addr) (d : Byte)
  | rdRsv0A (a : Addr)
  | wrRsv0A (a : Addr) (d : Byte)
  | rdRsv0B (a : Addr)
  | wrRsv0B (a : Addr) (d : Byte)
  | rdRam (a : Addr)
  | wrRam (a : Addr) (d : Byte)
  | rdRsv1A (a : Addr)
  | wrRsv1A (a : Addr) (d : Byte)
  | rdRsv1B (a : Addr)
  | wrRsv1B (a : Addr) (d : Byte)
  | rdChar (a : Addr)
  | wrChar (a : Addr) (d : Byte)
  -- BUS: I/O-window classes (R115 to R122)
  | ioRdNone (a : Addr)
  | ioWrNone (a : Addr) (d : Byte)
  | ioRdC1 (a : Addr)
  | ioWrC1 (a : Addr) (d : Byte)
  | ioRdC2 (a : Addr)
  | ioWrC2 (a : Addr) (d : Byte)
  | ioRdC12 (a : Addr)
  | ioWrC12 (a : Addr) (d : Byte)
  -- BUS: CPU-space memory classes above the I/O window (R123 to R132)
  | rdColor (a : Addr)
  | wrColor (a : Addr) (d : Byte)
  | rdRsv2 (a : Addr)
  | wrRsv2 (a : Addr) (d : Byte)
  | rdRsv3 (a : Addr)
  | wrRsv3 (a : Addr) (d : Byte)
  | rdBasic (a : Addr)
  | wrBasic (a : Addr) (d : Byte)
  | rdKernal (a : Addr)
  | wrKernal (a : Addr) (d : Byte)
  -- VF: video-fetch classes (R133 to R137)
  | vfChar (va : VAddr)
  | vfGap0 (va : VAddr)
  | vfZp (va : VAddr)
  | vfGap1A (va : VAddr)
  | vfGap1B (va : VAddr)
  | vfRam (va : VAddr)
  -- HOST: host operations (R73)
  | tick
  | exec (mode : ExecMode) (e : Nat)
  | reset
  | keyDown (code : Byte)
  | keyUp (code : Byte)
  | kbdAdvance (u : Nat)
  | scan (cols : Byte)
  | quickload (p : List Byte)
  | cartInsert (p : List Byte)
  | mapRegion (sp : Space) (acc : Access) (layer : Layer) (bank : BitVec 4) (base : Addr) (len : Nat) (off : Nat)
  | keyRegister (code : Byte) (col : BitVec 3) (row : BitVec 3) (mask : BitVec 2)
  | modRegister (m : BitVec 1) (col : BitVec 3) (row : BitVec 3)
  | memRead (sp : Space) (a : Addr)
  | memWrite (sp : Space) (a : Addr) (d : Byte)
  | vfetch (va : VAddr)
  | discard
deriving DecidableEq, Repr

/-- The operands passed beside a HOST word (R72, R73): elapsed time (E or U), the payload P, and a region's base, length and
offset. A word that takes none of one leaves it at its default. -/
structure HostOperands where
  us      : Nat := 0
  payload : List Byte := []
  base    : Addr := 0
  len     : Nat := 0
  off     : Nat := 0
deriving DecidableEq, Repr, Inhabited

/-- One encoded input (R65). The interface it arrives on gives its format: the pin word (with the data byte the CPU drives,
used on a write), the fetch call, or the host call. -/
inductive Frame where
  | bus (w : BitVec 17) (d : Byte)
  | vf (va : VAddr)
  | host (w : BitVec 32) (ops : HostOperands)
deriving DecidableEq, Repr

end Sys2Proof
end

