-- ==== Sys2Proof/WellFormed.lean ====
section
/-! DEFINITION. Which terms of `Instr` the encodings admit: a BUS or VF class only at the addresses of its row
(30_encoding.md R75, R76). The fields of a HOST row are exactly as wide as their types, so every HOST term is well-formed. -/

namespace Sys2Proof

/-- The address lies in the range `lo .. hi` of a row of R75. -/
def addrIn (a : Addr) (lo hi : Nat) : Bool := decide (lo ≤ a.toNat) && decide (a.toNat ≤ hi)

/-- The video address lies in the range `lo .. hi` of a row of R76. -/
def vaddrIn (va : VAddr) (lo hi : Nat) : Bool := decide (lo ≤ va.toNat) && decide (va.toNat ≤ hi)

/-- An I/O row of R75: inside 0x9000–0x93FF with the given values of address bits 5 and 4. -/
def ioRow (a : Addr) (a5 a4 : Bool) : Bool := addrIn a 0x9000 0x93FF && a.getLsbD 5 == a5 && a.getLsbD 4 == a4

/-- The term is one that some word decodes to. -/
def Instr.wellFormed : Instr → Bool
  | .rdZp a => addrIn a 0x0000 0x03FF
  | .wrZp a _ => addrIn a 0x0000 0x03FF
  | .rdRsv0A a => addrIn a 0x0400 0x07FF
  | .wrRsv0A a _ => addrIn a 0x0400 0x07FF
  | .rdRsv0B a => addrIn a 0x0800 0x0FFF
  | .wrRsv0B a _ => addrIn a 0x0800 0x0FFF
  | .rdRam a => addrIn a 0x1000 0x1FFF
  | .wrRam a _ => addrIn a 0x1000 0x1FFF
  | .rdRsv1A a => addrIn a 0x2000 0x3FFF
  | .wrRsv1A a _ => addrIn a 0x2000 0x3FFF
  | .rdRsv1B a => addrIn a 0x4000 0x7FFF
  | .wrRsv1B a _ => addrIn a 0x4000 0x7FFF
  | .rdChar a => addrIn a 0x8000 0x8FFF
  | .wrChar a _ => addrIn a 0x8000 0x8FFF
  | .ioRdNone a => ioRow a false false
  | .ioWrNone a _ => ioRow a false false
  | .ioRdC1 a => ioRow a false true
  | .ioWrC1 a _ => ioRow a false true
  | .ioRdC2 a => ioRow a true false
  | .ioWrC2 a _ => ioRow a true false
  | .ioRdC12 a => ioRow a true true
  | .ioWrC12 a _ => ioRow a true true
  | .rdColor a => addrIn a 0x9400 0x97FF
  | .wrColor a _ => addrIn a 0x9400 0x97FF
  | .rdRsv2 a => addrIn a 0x9800 0x9FFF
  | .wrRsv2 a _ => addrIn a 0x9800 0x9FFF
  | .rdRsv3 a => addrIn a 0xA000 0xBFFF
  | .wrRsv3 a _ => addrIn a 0xA000 0xBFFF
  | .rdBasic a => addrIn a 0xC000 0xDFFF
  | .wrBasic a _ => addrIn a 0xC000 0xDFFF
  | .rdKernal a => addrIn a 0xE000 0xFFFF
  | .wrKernal a _ => addrIn a 0xE000 0xFFFF
  | .vfChar va => vaddrIn va 0x0000 0x0FFF
  | .vfGap0 va => vaddrIn va 0x1000 0x1FFF
  | .vfZp va => vaddrIn va 0x2000 0x23FF
  | .vfGap1A va => vaddrIn va 0x2400 0x27FF
  | .vfGap1B va => vaddrIn va 0x2800 0x2FFF
  | .vfRam va => vaddrIn va 0x3000 0x3FFF
  | .tick => true
  | .exec _ _ => true
  | .reset => true
  | .keyDown _ => true
  | .keyUp _ => true
  | .kbdAdvance _ => true
  | .scan _ => true
  | .quickload _ => true
  | .cartInsert _ => true
  | .mapRegion _ _ _ _ _ _ _ => true
  | .keyRegister _ _ _ _ => true
  | .modRegister _ _ _ => true
  | .memRead _ _ => true
  | .memWrite _ _ _ => true
  | .vfetch _ => true
  | .discard => true

end Sys2Proof
end

