-- ==== Sys2Proof/Decode.lean ====
section
/-! DEFINITION. From encoded inputs to operations and back: the BUS decode algorithm and its rows (30_encoding.md R69, R74,
R75), the VF rows (R71, R76), the HOST words (R72, R73), the encoder written from the same tables, and the table words the
host asks about. -/

namespace Sys2Proof

/-- IO_WINDOW (40_tick_engine.md R85): `a[15:10] = 0b100100`. -/
def ioWindow (a : Addr) : Bool := a.extractLsb' 10 6 == 0b100100#6

/-- IOC1's chip select (R86). -/
def cs1Of (a : Addr) : Bool := ioWindow a && a.getLsbD 4

/-- IOC2's chip select (R87). -/
def cs2Of (a : Addr) : Bool := ioWindow a && a.getLsbD 5

/-- A read word of an I/O row, chosen by address bits 5 and 4 (R74, R75). -/
def decodeIoRead (a : Addr) : Instr :=
  match a.getLsbD 5, a.getLsbD 4 with
  | false, false => .ioRdNone a
  | false, true => .ioRdC1 a
  | true, false => .ioRdC2 a
  | true, true => .ioRdC12 a

/-- A write word of an I/O row. -/
def decodeIoWrite (a : Addr) (d : Byte) : Instr :=
  match a.getLsbD 5, a.getLsbD 4 with
  | false, false => .ioWrNone a d
  | false, true => .ioWrC1 a d
  | true, false => .ioWrC2 a d
  | true, true => .ioWrC12 a d

/-- The memory row of a read outside the I/O window, by the ranges of R75 in rising order. -/
def decodeMemRead (a : Addr) : Instr :=
  if a.toNat ≤ 0x03FF then .rdZp a
  else if a.toNat ≤ 0x07FF then .rdRsv0A a
  else if a.toNat ≤ 0x0FFF then .rdRsv0B a
  else if a.toNat ≤ 0x1FFF then .rdRam a
  else if a.toNat ≤ 0x3FFF then .rdRsv1A a
  else if a.toNat ≤ 0x7FFF then .rdRsv1B a
  else if a.toNat ≤ 0x8FFF then .rdChar a
  else if a.toNat ≤ 0x97FF then .rdColor a
  else if a.toNat ≤ 0x9FFF then .rdRsv2 a
  else if a.toNat ≤ 0xBFFF then .rdRsv3 a
  else if a.toNat ≤ 0xDFFF then .rdBasic a
  else .rdKernal a

/-- The memory row of a write outside the I/O window. -/
def decodeMemWrite (a : Addr) (d : Byte) : Instr :=
  if a.toNat ≤ 0x03FF then .wrZp a d
  else if a.toNat ≤ 0x07FF then .wrRsv0A a d
  else if a.toNat ≤ 0x0FFF then .wrRsv0B a d
  else if a.toNat ≤ 0x1FFF then .wrRam a d
  else if a.toNat ≤ 0x3FFF then .wrRsv1A a d
  else if a.toNat ≤ 0x7FFF then .wrRsv1B a d
  else if a.toNat ≤ 0x8FFF then .wrChar a d
  else if a.toNat ≤ 0x97FF then .wrColor a d
  else if a.toNat ≤ 0x9FFF then .wrRsv2 a d
  else if a.toNat ≤ 0xBFFF then .wrRsv3 a d
  else if a.toNat ≤ 0xDFFF then .wrBasic a d
  else .wrKernal a d

/-- The bus-cycle class of a cycle the CPU drives (R74): the I/O window is tested first. -/
def decodeCycle (rw : Rw) (a : Addr) (d : Byte) : Instr :=
  match rw with
  | .rd => if ioWindow a then decodeIoRead a else decodeMemRead a
  | .wr => if ioWindow a then decodeIoWrite a d else decodeMemWrite a d

/-- The rw field of a BUS word (R68): 1 is a read. -/
def busRw (w : BitVec 17) : Rw := if w.getLsbD 16 then .rd else .wr

/-- A BUS word `{rw, addr[15:0]}` (R69), with the data byte the CPU drives beside it. Every word is legal (R77). -/
def decodeBus (w : BitVec 17) (d : Byte) : Instr := decodeCycle (busRw w) (w.extractLsb' 0 16) d

/-- A VF word by the ranges of R76. Every word is legal (R77). -/
def decodeVf (va : VAddr) : Instr :=
  if va.toNat ≤ 0x0FFF then .vfChar va
  else if va.toNat ≤ 0x1FFF then .vfGap0 va
  else if va.toNat ≤ 0x23FF then .vfZp va
  else if va.toNat ≤ 0x27FF then .vfGap1A va
  else if va.toNat ≤ 0x2FFF then .vfGap1B va
  else .vfRam va

/-- Why a frame has no operation. All sixteen operation codes are assigned (R73), so the only illegal frame is a HOST word
with a set bit that its row does not name (R72, R77). -/
inductive DecodeError where
  | unnamedBit
deriving DecidableEq, Repr

/-- The operation, if only the low `n` of bits 27:0 are set (R72): the rows of R73 name a run of bits from bit 0. -/
def named (w : BitVec 32) (n : Nat) (i : Instr) : Except DecodeError Instr :=
  if w.toNat % 2 ^ 28 < 2 ^ n then .ok i else .error .unnamedBit

/-- The space a HOST word's space bit names (R73). -/
def spaceOf (b : Bool) : Space := if b then .vid else .cpu

/-- The right a MAP_REGION word's acc bit names (R73). -/
def accessOf (b : Bool) : Access := if b then .rw else .ro

/-- The layer a MAP_REGION word's layer bit names (R73). -/
def layerOf (b : Bool) : Layer := if b then .l1 else .l0

/-- The mode an EXEC word's mode bit names (R73). -/
def modeOf (b : Bool) : ExecMode := if b then .instrumented else .freeRun

/-- A HOST word with its operands (R72, R73). -/
def decodeHost (w : BitVec 32) (ops : HostOperands) : Except DecodeError Instr :=
  match (w.extractLsb' 28 4).toNat with
  | 0x0 => named w 0 .tick
  | 0x1 => named w 1 (.exec (modeOf (w.getLsbD 0)) ops.us)
  | 0x2 => named w 0 .reset
  | 0x3 => named w 8 (.keyDown (w.extractLsb' 0 8))
  | 0x4 => named w 8 (.keyUp (w.extractLsb' 0 8))
  | 0x5 => named w 0 (.kbdAdvance ops.us)
  | 0x6 => named w 8 (.scan (w.extractLsb' 0 8))
  | 0x7 => named w 0 (.quickload ops.payload)
  | 0x8 => named w 0 (.cartInsert ops.payload)
  | 0x9 => named w 7 (.mapRegion (spaceOf (w.getLsbD 0)) (accessOf (w.getLsbD 1)) (layerOf (w.getLsbD 2))
      (w.extractLsb' 3 4) ops.base ops.len ops.off)
  | 0xA => named w 16 (.keyRegister (w.extractLsb' 0 8) (w.extractLsb' 8 3) (w.extractLsb' 11 3) (w.extractLsb' 14 2))
  | 0xB => named w 7 (.modRegister (w.extractLsb' 0 1) (w.extractLsb' 1 3) (w.extractLsb' 4 3))
  | 0xC => named w 17 (.memRead (spaceOf (w.getLsbD 16)) (w.extractLsb' 0 16))
  | 0xD => named w 25 (.memWrite (spaceOf (w.getLsbD 24)) (w.extractLsb' 0 16) (w.extractLsb' 16 8))
  | 0xE => named w 14 (.vfetch (w.extractLsb' 0 14))
  | _ => named w 0 .discard   -- 0xF, the last of the four-bit codes

/-- Decoding is total: an operation, or a rejection by name (R65, R77). -/
def decode : Frame → Except DecodeError Instr
  | .bus w d => .ok (decodeBus w d)
  | .vf va => .ok (decodeVf va)
  | .host w ops => decodeHost w ops

/-- The BUS word of a read at `a` (R68, R69). -/
def rdWord (a : Addr) : Frame := .bus (1#1 ++ a) 0

/-- The BUS word of a write at `a`, with the CPU's data byte beside it (R68, R69). -/
def wrWord (a : Addr) (d : Byte) : Frame := .bus (0#1 ++ a) d

/-- A HOST word from its operation code and bits 27:0, with its operands (R72). -/
def hostWord (op : BitVec 4) (fields : BitVec 28) (ops : HostOperands := {}) : Frame := .host (op ++ fields) ops

/-- The space bit (R73). -/
def spaceBit : Space → BitVec 1
  | .cpu => 0
  | .vid => 1

/-- The acc bit (R73). -/
def accessBit : Access → BitVec 1
  | .ro => 0
  | .rw => 1

/-- The layer bit (R73). -/
def layerBit : Layer → BitVec 1
  | .l0 => 0
  | .l1 => 1

/-- The mode bit (R73). -/
def modeBit : ExecMode → BitVec 1
  | .freeRun => 0
  | .instrumented => 1

/-- The frame of an operation, from the same tables (R69, R71, R73). -/
def encode : Instr → Frame
  | .rdZp a => rdWord a
  | .wrZp a d => wrWord a d
  | .rdRsv0A a => rdWord a
  | .wrRsv0A a d => wrWord a d
  | .rdRsv0B a => rdWord a
  | .wrRsv0B a d => wrWord a d
  | .rdRam a => rdWord a
  | .wrRam a d => wrWord a d
  | .rdRsv1A a => rdWord a
  | .wrRsv1A a d => wrWord a d
  | .rdRsv1B a => rdWord a
  | .wrRsv1B a d => wrWord a d
  | .rdChar a => rdWord a
  | .wrChar a d => wrWord a d
  | .ioRdNone a => rdWord a
  | .ioWrNone a d => wrWord a d
  | .ioRdC1 a => rdWord a
  | .ioWrC1 a d => wrWord a d
  | .ioRdC2 a => rdWord a
  | .ioWrC2 a d => wrWord a d
  | .ioRdC12 a => rdWord a
  | .ioWrC12 a d => wrWord a d
  | .rdColor a => rdWord a
  | .wrColor a d => wrWord a d
  | .rdRsv2 a => rdWord a
  | .wrRsv2 a d => wrWord a d
  | .rdRsv3 a => rdWord a
  | .wrRsv3 a d => wrWord a d
  | .rdBasic a => rdWord a
  | .wrBasic a d => wrWord a d
  | .rdKernal a => rdWord a
  | .wrKernal a d => wrWord a d
  | .vfChar va => .vf va
  | .vfGap0 va => .vf va
  | .vfZp va => .vf va
  | .vfGap1A va => .vf va
  | .vfGap1B va => .vf va
  | .vfRam va => .vf va
  | .tick => hostWord 0x0 0
  | .exec mode e => hostWord 0x1 (0#27 ++ modeBit mode) (ops := { us := e })
  | .reset => hostWord 0x2 0
  | .keyDown code => hostWord 0x3 (0#20 ++ code)
  | .keyUp code => hostWord 0x4 (0#20 ++ code)
  | .kbdAdvance u => hostWord 0x5 0 (ops := { us := u })
  | .scan cols => hostWord 0x6 (0#20 ++ cols)
  | .quickload p => hostWord 0x7 0 (ops := { payload := p })
  | .cartInsert p => hostWord 0x8 0 (ops := { payload := p })
  | .mapRegion sp acc layer bank base len off =>
      hostWord 0x9 (0#21 ++ bank ++ layerBit layer ++ accessBit acc ++ spaceBit sp)
        (ops := { base := base, len := len, off := off })
  | .keyRegister code col row mask => hostWord 0xA (0#12 ++ mask ++ row ++ col ++ code)
  | .modRegister m col row => hostWord 0xB (0#21 ++ row ++ col ++ m)
  | .memRead sp a => hostWord 0xC (0#11 ++ spaceBit sp ++ a)
  | .memWrite sp a d => hostWord 0xD (0#3 ++ spaceBit sp ++ d ++ a)
  | .vfetch va => hostWord 0xE (0#14 ++ va)
  | .discard => hostWord 0xF 0

/-- The frame of a word of spec/opcode_table.json, by how many bits its row has in whole bytes (log 22): a VF word (14 bits,
two bytes), a BUS word (17 bits, three bytes; data byte 0) or a HOST word (32 bits; operands 0 and empty). A word too wide for
its interface is none. -/
def frameOfTable (nbits w : Nat) : Option Frame :=
  if nbits ≤ 16 then (if w < 2 ^ 14 then some (.vf (BitVec.ofNat 14 w)) else none)
  else if nbits ≤ 24 then (if w < 2 ^ 17 then some (.bus (BitVec.ofNat 17 w) 0) else none)
  else (if w < 2 ^ 32 then some (.host (BitVec.ofNat 32 w) {}) else none)

/-- What the decoder reads from a word of spec/opcode_table.json (bit 0 least significant). -/
def decodeTableWord (nbits w : Nat) : Option Instr :=
  match frameOfTable nbits w with
  | some f => (decode f).toOption
  | none => none

end Sys2Proof
end

