-- ==== Sys2Proof/Machine/Layout.lean ====
section
/-! DEFINITION. Banks, regions and the two layouts after construction (10_state.md R21 to R25; 20_memory.md R39, R41, R43,
R50, R51). -/

namespace Sys2Proof.Machine

/-- The banks, by the ids of R21 to R23. -/
inductive Bank where
  | zp
  | ram
  | char
  | basic
  | kernal
  | color
  | exp0
  | exp1
  | exp2
  | exp3
  | cart
deriving DecidableEq, Repr, Inhabited

/-- A region registration (R24). `base + len` and `off + len` are natural numbers, never wrapped. -/
structure Region where
  base  : Addr
  len   : Nat
  bank  : Bank
  off   : Nat
  acc   : Access
  layer : Layer
deriving DecidableEq, Repr, Inhabited

/-- The bank's id (R21 to R23). -/
def Bank.id : Bank → Nat
  | .zp => 0
  | .ram => 1
  | .char => 2
  | .basic => 3
  | .kernal => 4
  | .color => 5
  | .exp0 => 6
  | .exp1 => 7
  | .exp2 => 8
  | .exp3 => 9
  | .cart => 10

/-- The bank a MAP_REGION word's id names; ids 11 to 15 name none (R172). -/
def Bank.ofId (b : BitVec 4) : Option Bank :=
  match b.toNat with
  | 0 => some .zp
  | 1 => some .ram
  | 2 => some .char
  | 3 => some .basic
  | 4 => some .kernal
  | 5 => some .color
  | 6 => some .exp0
  | 7 => some .exp1
  | 8 => some .exp2
  | 9 => some .exp3
  | 10 => some .cart
  | _ => none

/-- The bank's size in bytes (R21 to R23): the cartridge's is the length of the last insertion. -/
def Bank.size (cartLen : Nat) : Bank → Nat
  | .zp => 0x400
  | .ram => 0x1000
  | .char => 0x1000
  | .basic => 0x2000
  | .kernal => 0x2000
  | .color => 0x400
  | .exp0 => 0x2000
  | .exp1 => 0x2000
  | .exp2 => 0x2000
  | .exp3 => 0x2000
  | .cart => cartLen

/-- The bank is fitted (R22). The other banks always are; an empty cartridge has size 0, so no region fits it. -/
def Bank.present (fitted : Vector Bool 4) : Bank → Bool
  | .exp0 => fitted[0]
  | .exp1 => fitted[1]
  | .exp2 => fitted[2]
  | .exp3 => fitted[3]
  | .zp => true
  | .ram => true
  | .char => true
  | .basic => true
  | .kernal => true
  | .color => true
  | .cart => true

/-- The key of a bank's cell in the one memory list: no bank is larger than 0x2000 bytes, so banks lie 0x2000 apart. -/
def cellKey (b : Bank) (i : Nat) : Nat := b.id * 0x2000 + i

/-- The region covers the address (R39). -/
def Region.covers (r : Region) (a : Addr) : Bool :=
  decide (r.base.toNat ≤ a.toNat) && decide (a.toNat < r.base.toNat + r.len)

/-- The bank index a region reaches at a covered address (R39, R70(b)). -/
def Region.index (r : Region) (a : Addr) : Nat := r.off + (a.toNat - r.base.toNat)

/-- The key of the bank cell a region reaches at a covered address (R39). -/
def Region.key (r : Region) (a : Addr) : Nat := cellKey r.bank (r.index a)

/-- Some address lies in both ranges. -/
def Region.overlaps (r q : Region) : Bool :=
  decide (r.base.toNat < q.base.toNat + q.len) && decide (q.base.toNat < r.base.toNat + r.len)

/-- CART_BASE (D17). -/
def cartBase : Addr := 0xA000

/-- The largest cartridge (R23, D17), which is also the span of a bank in `cellKey`. -/
def cartMax : Nat := 0x2000

/-- FILL: the read of an uncovered address (R7, R45). -/
def fill : Byte := 0xFF

/-- A system region over a whole bank, at layer 1 (R41, R43, D15). -/
def systemRegion (base : Addr) (b : Bank) (acc : Access) : Region :=
  { base := base, len := b.size 0, bank := b, off := 0, acc := acc, layer := .l1 }

/-- The region of a fitted expansion bank (R50, D16). -/
def expRegion (base : Addr) (b : Bank) : Region :=
  { base := base, len := 0x2000, bank := b, off := 0, acc := .rw, layer := .l0 }

/-- The expansion regions of the banks that are fitted, at EXP_BASE (R50). -/
def expRegions (fitted : Vector Bool 4) : List Region :=
  (if fitted[0] then [expRegion 0x2000 .exp0] else []) ++
  (if fitted[1] then [expRegion 0x4000 .exp1] else []) ++
  (if fitted[2] then [expRegion 0x6000 .exp2] else []) ++
  (if fitted[3] then [expRegion 0xA000 .exp3] else [])

/-- `S.regions[CPU]` after construction (R41, R50). -/
def cpuLayout (fitted : Vector Bool 4) : List Region :=
  [systemRegion 0x0000 .zp .rw, systemRegion 0x1000 .ram .rw, systemRegion 0x8000 .char .ro,
   systemRegion 0x9400 .color .rw, systemRegion 0xC000 .basic .ro, systemRegion 0xE000 .kernal .ro] ++
  expRegions fitted

/-- `S.regions[VID]` after construction (R43). -/
def vidLayout : List Region :=
  [systemRegion 0x0000 .char .ro, systemRegion 0x2000 .zp .ro, systemRegion 0x3000 .ram .ro]

/-- The region of a cartridge of `n` bytes (R51, R171). -/
def cartRegion (n : Nat) : Region :=
  { base := cartBase, len := n, bank := .cart, off := 0, acc := .ro, layer := .l0 }

/-- A region is the one a cartridge insertion registered (log 14). -/
def Region.isCart (r : Region) : Bool := r.bank == .cart && r.base == cartBase && r.layer == .l0

end Sys2Proof.Machine
end

