-- ==== Sys2Proof/Machine/Parts.lean ====
section
/-! DEFINITION. The records the state is made of, each with its value right after construction (10_state.md R26 to R29, R35),
and what the block puts out: events, results, named refusals (00_scope.md R12, 60_exceptions.md R188). -/

namespace Sys2Proof.Machine

/-- A matrix coordinate: column and row (42_keyboard.md R141). -/
structure Coord where
  col : BitVec 3
  row : BitVec 3
deriving DecidableEq, Repr, Inhabited

/-- One cell of the matrix: pressed, its age in microseconds and its pending release (R26, R27). -/
structure KeyCell where
  pressed : Bool
  age     : Nat
  pend    : Bool
deriving DecidableEq, Repr, Inhabited

/-- A registration of a key code: its cell and its modifier mask (R26, R143). -/
structure KeyEntry where
  cell : Coord
  mask : BitVec 2
deriving DecidableEq, Repr, Inhabited

/-- The keyboard state (R26, R27): the 64 cells, cell (c, r) at index 8·c + r; the cells the two modifiers are bound to; and
the keymap, a list of code and registration with the codes strictly rising. -/
structure Keyboard where
  cells   : Vector KeyCell 64
  modCell : Vector (Option Coord) 2
  keymap  : List (Nat × KeyEntry)
deriving DecidableEq, Repr

/-- The sample buffer and its write position (R29). -/
structure Audio where
  buf : List Sample
  pos : Nat
deriving DecidableEq, Repr

/-- An event of the output trace (00_scope.md R12): a call of the audio sink (R103) or of the debug callback (R166). -/
inductive Event where
  | audioSink (samples : List Sample) (count : Nat)
  | debugCallback (pins : Pins)
deriving DecidableEq, Repr

/-- The named reasons for which an operation is refused (60_exceptions.md R188). -/
inductive Reason where
  | discarded      -- a host operation while S.valid = 0 (R161)
  | badWord        -- a HOST word with a nonzero unnamed bit (R72)
  | region         -- a registration that breaks R38 (R172)
  | cartSize       -- a cartridge of 0 or more than 0x2000 bytes (R171)
  | cartOverlap    -- a cartridge over a layer-0 region (R171, R38(d))
  | configClosed   -- a registration after the configuration phase (R144)
  | noDebugHook    -- instrumented EXEC with no debug hook (R166)
deriving DecidableEq, Repr

/-- What the last operation returned (the model's own field, log 4). -/
inductive Result where
  | none
  | byte (b : Byte)       -- SCAN, MEM_READ
  | word (w : BitVec 16)  -- VFETCH and the VF classes
  | count (k : Nat)       -- EXEC
  | flag (b : Bool)       -- QUICKLOAD
  | refused (why : Reason)
deriving DecidableEq, Repr

/-- The keyboard after construction (R35): nothing pressed; no modifier bound and no code registered until the configuration
phase does so (R144, R204; log 16). -/
def Keyboard.initial : Keyboard :=
  { cells := Vector.replicate 64 { pressed := false, age := 0, pend := false }
    modCell := Vector.replicate 2 none
    keymap := [] }

/-- The sample buffer after construction (R35): AUDIO_CAP drawn entries, position 0. -/
def Audio.initial (cap : Nat) : Audio := { buf := (List.range cap).map Config.audioInit, pos := 0 }

/-- PIN_RESET with irq and nmi clear (R35, R201). -/
def pinsAtReset (p : PinReset) : Pins :=
  { addr := p.addr, data := p.data, rw := p.rw, irq := false, nmi := false, other := p.other }

end Sys2Proof.Machine
end

