-- ==== Sys2Proof/Machine/State.lean ====
section
/-! DEFINITION. The state of the block as plain data (10_state.md R15): everything the spec gives it, the parameters it was
constructed with, and the model's own bookkeeping (input, result, output trace, draw counter); the state right after
construction (R35); and the reasons a construction or a step can stop. -/

namespace Sys2Proof.Machine

/-- Why construction produces no state (R187). Raised by `construct` only: no step faults (R104, R186). Safe: the source
calls each a fatal configuration error, so no run begins. -/
inductive Fault where
  /-- ROM_SIZE: a ROM image missing or not of its exact size. Raised by `construct`. Safe. -/
  | romSize
  /-- AUDIO_CAP: an audio capacity of 0 or above the maximum. Raised by `construct`. Safe. -/
  | audioCap
  /-- DEBUG_STOP: a debug callback without a stop flag. Raised by `construct`. Safe. -/
  | debugStop
deriving DecidableEq, Repr

/-- Why the model gives no meaning. -/
inductive Refusal where
  /-- An instruction with no meaning yet: only an arm of `exec` says so. Safe. No arm does. -/
  | notModelled (mnemonic : String)
  /-- A configuration with a joystick (R154, R188, D12). Raised by `construct`. Safe. -/
  | joystick
deriving DecidableEq, Repr

/-- The state. Fields named as in R15, then the construction parameters (R32, log 8), then the model's own. -/
structure State where
  cpu         : ChipState
  ioc1        : ChipState
  ioc2        : ChipState
  vic         : ChipState
  pins        : Pins
  mem         : List Host.Cell
  cartLen     : Nat
  regionsCpu  : List Region
  regionsVid  : List Region
  kbd         : Keyboard
  cols        : Byte
  audio       : Audio
  valid       : Bool
  refused     : Bool
  configPhase : Bool
  params      : Params
  inbox       : List Frame
  result      : Result
  trace       : List Event
  draws       : Nat
deriving DecidableEq, Repr

/-- The state right after construction with the given parameters (R35, construction column). -/
def State.constructed (p : Params) : State :=
  { cpu := Config.chips.cpuReset Config.chips.cpuInit
    ioc1 := Config.chips.ioc1Reset Config.chips.ioc1Init
    ioc2 := Config.chips.ioc2Reset Config.chips.ioc2Init
    vic := Config.chips.vicReset Config.chips.vicInit
    pins := pinsAtReset p.pinReset
    mem := []
    cartLen := 0
    regionsCpu := cpuLayout p.expPresent
    regionsVid := vidLayout
    kbd := Keyboard.initial
    cols := 0
    audio := Audio.initial p.audioCap
    valid := true
    refused := false
    configPhase := true
    params := p
    inbox := []
    result := .none
    trace := []
    draws := 0 }

/-- The machine right after reset: just constructed, with whatever parameters it has (R35, log 8). -/
def State.reset : State := State.constructed Config.params

end Sys2Proof.Machine
end

