-- ==== Sys2Proof/Machine/Flags.lean ====
section
/-! DEFINITION. The block has no flags and no condition codes (10_state.md R17). Its interrupt lines are levels in the pin
word, computed afresh in every tick (40_tick_engine.md R83, R94, R98; 60_exceptions.md R190). -/

namespace Sys2Proof.Machine

/-- Both interrupt lines cleared, whatever they were (R83). -/
def Pins.clearLines (p : Pins) : Pins := { p with irq := false, nmi := false }

/-- IOC1's interrupt output on the CPU's NMI line: the level passes through (R94, C6, D34). -/
def Pins.routeNmi (p : Pins) (irqOut : Bool) : Pins := { p with nmi := p.nmi || irqOut }

/-- IOC2's interrupt output on the CPU's IRQ line (R98). -/
def Pins.routeIrq (p : Pins) (irqOut : Bool) : Pins := { p with irq := p.irq || irqOut }

end Sys2Proof.Machine
end

