-- ==== Sys2Proof/Machine/Memory.lean ====
section
/-! DEFINITION. Lists of key and value with strictly rising keys, and the bank cells kept as one such list: a cell that is not
listed holds `Config.powerOn` of its key, and a listed cell holds something else (10_state.md R21 to R23; log 7). -/

namespace Sys2Proof.Machine

/-- The value listed for a key. -/
def assocFind {α : Type} : List (Nat × α) → Nat → Option α
  | [], _ => none
  | (k', v) :: t, k => if k' = k then some v else assocFind t k

/-- The list with `v` at `k`, in its place or instead of what stands there. -/
def assocInsert {α : Type} : List (Nat × α) → Nat → α → List (Nat × α)
  | [], k, v => [(k, v)]
  | (k', v') :: t, k, v =>
    if k < k' then (k, v) :: (k', v') :: t
    else if k = k' then (k, v) :: t
    else (k', v') :: assocInsert t k v

/-- The list without the key. -/
def assocErase {α : Type} (l : List (Nat × α)) (k : Nat) : List (Nat × α) := l.filter (fun c => c.1 != k)

/-- The keys strictly rise. -/
abbrev AssocSorted {α : Type} (l : List (Nat × α)) : Prop := l.Pairwise (fun c c' => c.1 < c'.1)

/-- The byte of the cell with key `k`. -/
def Memory.read (m : List Host.Cell) (k : Nat) : Byte := (assocFind m k).getD (Config.powerOn k)

/-- The memory with `v` in the cell with key `k`: what an unlisted cell holds anyway is not listed. -/
def Memory.write (m : List Host.Cell) (k : Nat) (v : Byte) : List Host.Cell :=
  if v = Config.powerOn k then assocErase m k else assocInsert m k v

/-- The canonical form: keys strictly rising, and no entry equal to what its cell holds when unlisted. -/
abbrev Memory.wf (m : List Host.Cell) : Prop := AssocSorted m ∧ ∀ c ∈ m, c.2 ≠ Config.powerOn c.1

/-- The memory with a bank's cells no longer listed. -/
def Memory.dropBank (m : List Host.Cell) (b : Bank) : List Host.Cell := m.filter (fun c => c.1 / 0x2000 != b.id)

/-- The memory with a run of bytes written from key `k` up. -/
def Memory.writeRun : List Host.Cell → Nat → List Byte → List Host.Cell
  | m, _, [] => m
  | m, k, v :: vs => Memory.writeRun (Memory.write m k v) (k + 1) vs

end Sys2Proof.Machine
end

