-- ==== Sys2Proof/Machine/Matrix.lean ====
section
/-! DEFINITION. The keyboard matrix: its cells, pressing and releasing them, keyboard time, and the scan (42_keyboard.md). -/

namespace Sys2Proof.Machine

/-- The index of cell (c, r) among the 64 (R141). -/
def cellIndex (x : Coord) : Fin 64 := ⟨8 * x.col.toNat + x.row.toNat, by omega⟩

/-- The cell at a coordinate. -/
def Keyboard.cell (k : Keyboard) (x : Coord) : KeyCell := k.cells[cellIndex x]

/-- The keyboard with another cell at a coordinate. -/
def Keyboard.setCell (k : Keyboard) (x : Coord) (c : KeyCell) : Keyboard := { k with cells := k.cells.set (cellIndex x) c }

/-- `Press` of R145. -/
def Keyboard.press (k : Keyboard) (x : Coord) : Keyboard := k.setCell x { pressed := true, age := 0, pend := false }

/-- What `Release` of R146 makes of a cell: young cells keep showing and wait (log 17). -/
def KeyCell.release (hold : Nat) (c : KeyCell) : KeyCell :=
  if hold ≤ c.age then { c with pressed := false, pend := false } else { c with pend := true }

/-- `Release` of R146. -/
def Keyboard.release (hold : Nat) (k : Keyboard) (x : Coord) : Keyboard := k.setCell x ((k.cell x).release hold)

/-- An action on the cell of modifier `j`, if the mask names it and it is bound (R145, R146). -/
def Keyboard.onModifier (f : Keyboard → Coord → Keyboard) (mask : BitVec 2) (j : Fin 2) (k : Keyboard) : Keyboard :=
  if mask.getLsbD j then (match k.modCell[j] with | some x => f k x | none => k) else k

/-- An action on the key's cell and then on its modifiers' cells (R145, R146). -/
def Keyboard.onKey (f : Keyboard → Coord → Keyboard) (e : KeyEntry) (k : Keyboard) : Keyboard :=
  ((f k e.cell).onModifier f e.mask 0).onModifier f e.mask 1

/-- KEY_DOWN on the keyboard: an unregistered code does nothing (R145, R147). -/
def Keyboard.keyDown (code : Byte) (k : Keyboard) : Keyboard :=
  match assocFind k.keymap code.toNat with
  | some e => k.onKey Keyboard.press e
  | none => k

/-- KEY_UP on the keyboard: an unregistered code does nothing (R146, R147). -/
def Keyboard.keyUp (hold : Nat) (code : Byte) (k : Keyboard) : Keyboard :=
  match assocFind k.keymap code.toNat with
  | some e => k.onKey (Keyboard.release hold) e
  | none => k

/-- What `U` microseconds of keyboard time make of a cell (R148). -/
def KeyCell.advance (hold u : Nat) (c : KeyCell) : KeyCell :=
  if c.pressed then
    if c.pend && decide (hold ≤ c.age + u) then { pressed := false, age := c.age + u, pend := false }
    else { c with age := c.age + u }
  else c

/-- KBD_ADVANCE on the keyboard (R148): every cell, one by one. -/
def Keyboard.advance (hold u : Nat) (k : Keyboard) : Keyboard :=
  { k with cells := Vector.mk (Array.mk (k.cells.toArray.toList.map (KeyCell.advance hold u))) (by simp) }

/-- MOD_REGISTER on the keyboard (R142). -/
def Keyboard.bindModifier (m : BitVec 1) (x : Coord) (k : Keyboard) : Keyboard :=
  { k with modCell := k.modCell.set m.toFin (some x) }

/-- KEY_REGISTER on the keyboard: an earlier registration of the code is replaced (R143). -/
def Keyboard.registerKey (code : Byte) (e : KeyEntry) (k : Keyboard) : Keyboard :=
  { k with keymap := assocInsert k.keymap code.toNat e }

/-- The eight columns. -/
def columns : List (BitVec 3) := [0, 1, 2, 3, 4, 5, 6, 7]

/-- Row `r` has a pressed cell in an active column (R150). -/
def Keyboard.rowActive (k : Keyboard) (cols : Byte) (r : BitVec 3) : Bool :=
  columns.any (fun c => cols.getLsbD c.toNat && (k.cell { col := c, row := r }).pressed)

/-- `ScanRows` (R150): the active-high row set. -/
def Keyboard.scanRows (k : Keyboard) (cols : Byte) : Byte :=
  BitVec.ofFnLE (fun r : Fin 8 => k.rowActive cols (BitVec.ofNat 3 r.val))

/-- `scan` (R150, C4): the active-low port value. -/
def Keyboard.scan (k : Keyboard) (cols : Byte) : Byte := ~~~ (k.scanRows cols)

end Sys2Proof.Machine
end

