-- ==== Sys2Proof/Machine/Operands.lean ====
section
/-! DEFINITION. Operand assembly (30_encoding.md R70, 20_memory.md R55): the chip selects an address gives (the I/O window and
the IO chips' selects are in Decode.lean, which decodes by them), the video address, the quickload header, and EXEC's tick
count. -/

namespace Sys2Proof.Machine

/-- The VIC's chip select (40_tick_engine.md R88): VIC_SEL counts only inside the I/O window (D2). -/
def csvOf (p : Params) (a : Addr) : Bool := ioWindow a && p.vicSel.contains a

/-- The video address as the VID lookup takes it: bits 13:0, zero-extended (R52, R71, R139). -/
def videoAddr (va : Addr) : Addr := (va.extractLsb' 0 14).setWidth 16

/-- The index into color RAM: bits 9:0 (R53, R70(d)). -/
def colorIndex (va : Addr) : Nat := (va.extractLsb' 0 10).toNat

/-- The quickload header: a little-endian load address (R55(a), R169). -/
def loadAddress (lo hi : Byte) : Addr := hi ++ lo

/-- CLOCK_HZ (R7, D26). -/
def clockHz : Nat := 1108404

/-- EXEC's tick count: `floor(CLOCK_HZ · E / 1_000_000)`, over the naturals (R164). -/
def ticksFor (e : Nat) : Nat := clockHz * e / 1000000

end Sys2Proof.Machine
end

