-- ==== Sys2Proof/Machine/Ops.lean ====
section
/-! DEFINITION. The named operations over the state: lookup, read and write of a logical space, the video fetch, region
registration, draws, emitted events, answers, and refusing.

The block takes no exception: it has no trap, cause code, saved register, vector or return (60_exceptions.md R186, R192). The
one shared way an operation ends without its effect is `State.refuse` (R188). -/

namespace Sys2Proof.Machine

/-- `refuse(reason)` (00_scope.md R12, R188, D29): the state unchanged but for the refusal mark, with the reason as the answer
(log 3). -/
def State.refuse (why : Reason) (s : State) : State := { s with refused := true, result := .refused why }

/-- The operation returned `r` (log 4). -/
def State.answer (r : Result) (s : State) : State := { s with result := r }

/-- `emit(event)` (R12). -/
def State.emit (e : Event) (s : State) : State := { s with trace := s.trace ++ [e] }

/-- One more draw made (log 6). -/
def State.drawn (s : State) : State := { s with draws := s.draws + 1 }

/-- The configuration phase is over (42_keyboard.md R144). -/
def State.closeConfig (s : State) : State := { s with configPhase := false }

/-- The data bus carries `v`. -/
def State.setData (v : Byte) (s : State) : State := { s with pins := { s.pins with data := v } }

/-- The region table of a space (R25). -/
def State.regions (s : State) : Space → List Region
  | .cpu => s.regionsCpu
  | .vid => s.regionsVid

/-- The first region of a layer that covers the address; R38(d) leaves at most one. -/
def coveringAt (rs : List Region) (l : Layer) (a : Addr) : Option Region :=
  rs.find? (fun r => r.layer == l && r.covers a)

/-- The effective region (R44): the covering region of lowest layer. -/
def effectiveIn (rs : List Region) (a : Addr) : Option Region :=
  match coveringAt rs .l0 a with
  | some r => some r
  | none => coveringAt rs .l1 a

/-- The effective region of an address in a space (R44). -/
def State.effective (s : State) (sp : Space) (a : Addr) : Option Region := effectiveIn (s.regions sp) a

/-- The byte at an index of a bank. -/
def State.bankByte (s : State) (b : Bank) (i : Nat) : Byte := Memory.read s.mem (cellKey b i)

/-- `MemRead(sp, a, 1)` (R45). -/
def State.memRead (s : State) (sp : Space) (a : Addr) : Byte :=
  match s.effective sp a with
  | some r => Memory.read s.mem (r.key a)
  | none => fill

/-- The key of the cell a write to the address reaches, if its effective region is RW (R46). -/
def State.writeKey (s : State) (sp : Space) (a : Addr) : Option Nat :=
  match s.effective sp a with
  | some r => if r.acc = .rw then some (r.key a) else none
  | none => none

/-- `MemWrite(sp, a, 1, v)` (R46): one cell, or nothing. -/
def State.memWrite (s : State) (sp : Space) (a : Addr) (v : Byte) : State :=
  match s.writeKey sp a with
  | some k => { s with mem := Memory.write s.mem k v }
  | none => s

/-- `VFetch(va)` (R52), as the n-th fetch under the present draw counter: the VID byte below, and above it the color nibble in
bits 11:8 and a drawn nibble in bits 15:12. -/
def State.vfetch (s : State) (n : Nat) (va : Addr) : BitVec 16 :=
  (Config.draw s.draws n).extractLsb' 0 4 ++ (s.bankByte .color (colorIndex va)).extractLsb' 0 4 ++
    s.memRead .vid (videoAddr va)

/-- The region's shape is one that may be registered (R24, R38(a), R38(b)): a range of 1 or more bytes below 0x10000, inside a
fitted bank. -/
def State.regionFits (s : State) (r : Region) : Bool :=
  decide (1 ≤ r.len) && decide (r.base.toNat + r.len ≤ 0x10000) && r.bank.present s.params.expPresent &&
    decide (r.off + r.len ≤ r.bank.size s.cartLen)

/-- Some region of the list shares the new region's layer and an address of its range (R38(d)). -/
def clashes (rs : List Region) (r : Region) : Bool := rs.any (fun q => q.layer == r.layer && q.overlaps r)

/-- The registration is admitted (R38). -/
def State.admits (s : State) (sp : Space) (r : Region) : Bool := s.regionFits r && !clashes (s.regions sp) r

/-- The region added to a space's table (R172). -/
def State.addRegion (sp : Space) (r : Region) (s : State) : State :=
  match sp with
  | .cpu => { s with regionsCpu := s.regionsCpu ++ [r] }
  | .vid => { s with regionsVid := s.regionsVid ++ [r] }

/-- MAP_REGION with its region assembled (R172). -/
def State.mapRegion (sp : Space) (r : Region) (s : State) : State :=
  if s.admits sp r then (s.addRegion sp r).answer .none else s.refuse .region

/-- The CPU table without the inserted cartridge's region (R171, log 14). -/
def State.withoutCart (s : State) : List Region := s.regionsCpu.filter (fun r => !r.isCart)

/-- A cartridge of `n` bytes would lie over another layer-0 region (R38(d), R171; log 13). -/
def State.cartClash (s : State) (n : Nat) : Bool := s.params.expPresent[3] || clashes s.withoutCart (cartRegion n)

/-- The cartridge bank loaded and its region registered (R171). -/
def State.loadCart (p : List Byte) (s : State) : State :=
  { s with
    mem := Memory.writeRun (Memory.dropBank s.mem .cart) (cellKey .cart 0) p
    cartLen := p.length
    regionsCpu := s.withoutCart ++ [cartRegion p.length] }

/-- CART_INSERT (R171). -/
def State.cartInsert (p : List Byte) (s : State) : State :=
  if p.length = 0 ∨ cartMax < p.length then s.refuse .cartSize
  else if s.cartClash p.length then s.refuse .cartOverlap
  else (s.loadCart p).answer .none

/-- Bytes written through the CPU space from an address up, wrapping at the top (R169, D25). -/
def State.loadBytes : Addr → List Byte → State → State
  | _, [], s => s
  | a, b :: bs, s => State.loadBytes (a + 1) bs (s.memWrite .cpu a b)

/-- QUICKLOAD (R169, R170). -/
def State.quickload (p : List Byte) (s : State) : State :=
  match p with
  | lo :: hi :: bytes => (s.loadBytes (loadAddress lo hi) bytes).answer (.flag true)
  | _ => s.answer (.flag false)

/-- The keyboard replaced. -/
def State.setKbd (k : Keyboard) (s : State) : State := { s with kbd := k }

/-- KBD_ADVANCE (R148). -/
def State.kbdAdvance (u : Nat) (s : State) : State := s.setKbd (s.kbd.advance s.params.kbdHoldUs u)

/-- `AudioPush` (40_tick_engine.md R102, R103): a full buffer is handed to the sink and the position starts again. -/
def State.audioPush (x : Sample) (s : State) : State :=
  if s.audio.pos + 1 = s.params.audioCap then
    { s with
      audio := { buf := s.audio.buf.set s.audio.pos x, pos := 0 }
      trace := s.trace ++ [.audioSink ((s.audio.buf.set s.audio.pos x).take s.params.audioCap) s.params.audioCap] }
  else { s with audio := { buf := s.audio.buf.set s.audio.pos x, pos := s.audio.pos + 1 } }

/-- RESET (70_reset_and_hazards.md R201): chips, pins, column latch and audio position; everything else is kept (R202). -/
def State.resetBlock (ch : Chips) (s : State) : State :=
  { s with
    cpu := ch.cpuReset s.cpu
    ioc1 := ch.ioc1Reset s.ioc1
    ioc2 := ch.ioc2Reset s.ioc2
    vic := ch.vicReset s.vic
    pins := pinsAtReset s.params.pinReset
    cols := 0
    audio := { s.audio with pos := 0 } }

/-- DISCARD (43_host_operations.md R176). -/
def State.discard (s : State) : State := { s with valid := false }

/-- A host operation: refused on a discarded block (R161), and otherwise a next state. -/
def operate (f : State → State) (s : State) : Host.Outcome State Fault Refusal :=
  .next (if s.valid then f s else s.refuse .discarded)

/-- The machine after taking a frame from its input. -/
def State.withInbox (fs : List Frame) (s : State) : State := { s with inbox := fs }

/-- A step with no input pending: the block does nothing, it ticks only when the host calls it (60_exceptions.md R198; log 1). -/
def idle (s : State) : Host.Outcome State Fault Refusal := .next s

/-- A frame that no operation decodes from is refused by name (30_encoding.md R72, R77; R161 names an invalid block first). -/
def rejectFrame (s : State) : Host.Outcome State Fault Refusal := operate (State.refuse .badWord) s

end Sys2Proof.Machine
end

