-- ==== Sys2Proof/Machine/Tick.lean ====
section
/-! DEFINITION. The tick (40_tick_engine.md R81), step by step, over any chips; the bus cycles of a scripted CPU (30_encoding.md
R79), which are the same steps after the CPU's; and the tick loops of EXEC (43_host_operations.md R165, R166). -/

namespace Sys2Proof.Machine

/-- Step 1 (R82): the CPU ticks on the pin word the previous tick left, and drives this cycle's pins. -/
def State.cpuStep (ch : Chips) (s : State) : State :=
  { s with cpu := (ch.cpuTick s.cpu s.pins).1, pins := (ch.cpuTick s.cpu s.pins).2 }

/-- Step 1 (R83): both interrupt lines cleared. -/
def State.clearLines (s : State) : State := { s with pins := Pins.clearLines s.pins }

/-- Step 2 outside the window, on a read (R89). -/
def State.readMemory (s : State) : State := s.setData (s.memRead .cpu s.pins.addr)

/-- Step 2 outside the window, on a write (R89). -/
def State.writeMemory (s : State) : State := s.memWrite .cpu s.pins.addr s.pins.data

/-- Step 2 inside the window, on a read (R90, D6): the bus is undriven. -/
def State.floatBus (s : State) : State := (s.setData (Config.draw s.draws 0)).drawn

/-- Step 2 (R89, R90): the transaction of the cycle the CPU drives. -/
def State.transaction (s : State) : State :=
  match ioWindow s.pins.addr, s.pins.rw with
  | true, .rd => s.floatBus
  | true, .wr => s
  | false, .rd => s.readMemory
  | false, .wr => s.writeMemory

/-- What IOC1 receives (R92, R93, R95): every input of its own is pulled high. -/
def State.pins1 (s : State) (cs : Bool) : IocIn :=
  { addr := s.pins.addr, data := s.pins.data, rw := s.pins.rw, cs := cs, rowPort := 0xFF, others := true }

/-- What IOC2 receives (R92, R95, R96): the inverted row scan of the latched columns on its input port. -/
def State.pins2 (s : State) (cs : Bool) : IocIn :=
  { addr := s.pins.addr, data := s.pins.data, rw := s.pins.rw, cs := cs, rowPort := s.kbd.scan s.cols, others := true }

/-- What the VIC receives (R92, R99). -/
def State.pinsV (s : State) (cs : Bool) : VicIn :=
  { addr := s.pins.addr, data := s.pins.data, rw := s.pins.rw, cs := cs }

/-- The data bus after a chip's step (R100): a selected chip drives it on a read. -/
def muxData (p : Pins) (cs : Bool) (out : Byte) : Byte := if cs && p.rw == .rd then out else p.data

/-- Step 3 (R93, R94, R100): IOC1 ticks, may drive the bus, and drives NMI. -/
def State.ioc1Step (ch : Chips) (cs : Bool) (s : State) : State :=
  let q := ch.ioc1Tick s.ioc1 (s.pins1 cs)
  { s with
    ioc1 := q.1
    pins := Pins.routeNmi { s.pins with data := muxData s.pins cs q.2.data } q.2.irqOut }

/-- Step 4 (R96, R97, R98, R100): IOC2 ticks on the scanned rows, latches the columns, may drive the bus, and drives IRQ. -/
def State.ioc2Step (ch : Chips) (cs : Bool) (s : State) : State :=
  let q := ch.ioc2Tick s.ioc2 (s.pins2 cs)
  { s with
    ioc2 := q.1
    cols := ~~~ q.2.colOut
    pins := Pins.routeIrq { s.pins with data := muxData s.pins cs q.2.data } q.2.irqOut }

/-- Step 6 (R102): a sample, if the VIC has one ready. -/
def State.audioStep (q : VicOut) (s : State) : State := if q.sampleReady then s.audioPush q.sample else s

/-- Steps 5 and 6 (R99, R100, R102): the VIC ticks with the fetch capability over the memory as it now is, may drive the bus,
and may hand over a sample. The step is one round of draws (log 6). -/
def State.vicStep (ch : Chips) (cs : Bool) (s : State) : State :=
  let q := ch.vicTick s.vic (s.pinsV cs) s.vfetch
  State.audioStep q.2
    { s with
      vic := q.1
      pins := { s.pins with data := muxData s.pins cs q.2.data }
      draws := s.draws + 1 }

/-- Steps 3 to 6 with the chip selects given: every chip ticks once, selected or not (R91). -/
def State.chipSteps (ch : Chips) (cs1 cs2 csv : Bool) (s : State) : State :=
  State.vicStep ch csv (State.ioc2Step ch cs2 (State.ioc1Step ch cs1 s))

/-- The tick after the CPU's step (R81): decode the address it drives (R84 to R88), transact, and tick the other chips. -/
def State.cycle (ch : Chips) (s : State) : State :=
  State.chipSteps ch (cs1Of s.pins.addr) (cs2Of s.pins.addr) (csvOf s.params s.pins.addr) s.clearLines.transaction

/-- The tick (R81). -/
def State.tick (ch : Chips) (s : State) : State := (s.cpuStep ch).cycle ch

/-- A scripted CPU drives a read (R79): its sub-state and the other pins stay (log 2). -/
def State.driveRead (a : Addr) (s : State) : State := { s with pins := { s.pins with addr := a, rw := .rd } }

/-- A scripted CPU drives a write (R79). -/
def State.driveWrite (a : Addr) (d : Byte) (s : State) : State :=
  { s with pins := { s.pins with addr := a, rw := .wr, data := d } }

/-- A read cycle of a memory class: one memory-map read, no chip selected (R89, R105 to R131). -/
def State.memReadCycle (ch : Chips) (a : Addr) (s : State) : State :=
  (s.driveRead a).clearLines.readMemory.chipSteps ch false false false

/-- A write cycle of a memory class: one memory-map write, no chip selected (R89, R106 to R132). -/
def State.memWriteCycle (ch : Chips) (a : Addr) (d : Byte) (s : State) : State :=
  (s.driveWrite a d).clearLines.writeMemory.chipSteps ch false false false

/-- A read cycle of an I/O class with its two chip selects; VIC_SEL may add the VIC's (R90, R115 to R121, R138). -/
def State.ioReadCycle (ch : Chips) (cs1 cs2 : Bool) (a : Addr) (s : State) : State :=
  (s.driveRead a).clearLines.floatBus.chipSteps ch cs1 cs2 (csvOf s.params a)

/-- A write cycle of an I/O class with its two chip selects (R90, R101, R116 to R122, R138). -/
def State.ioWriteCycle (ch : Chips) (cs1 cs2 : Bool) (a : Addr) (d : Byte) (s : State) : State :=
  (s.driveWrite a d).clearLines.chipSteps ch cs1 cs2 (csvOf s.params a)

/-- An operation that is one tick: it ends the configuration phase and returns nothing (R144, R163; log 23). -/
def tickOp (f : State → State) (s : State) : Host.Outcome State Fault Refusal :=
  operate (fun s => (f s).closeConfig.answer .none) s

/-- EXEC's free-run loop (R165): `n` ticks. -/
def State.ticks (ch : Chips) : Nat → State → State
  | 0, s => s
  | n + 1, s => State.ticks ch n (s.tick ch)

/-- One turn of EXEC's instrumented loop (R166): a tick, the debug callback with the resulting pins, and a poll of the stopped
flag, which is one draw. -/
def State.watchedTick (ch : Chips) (s : State) : State :=
  let t := s.tick ch
  (t.emit (.debugCallback t.pins)).drawn

/-- The stopped flag as the turn that led to `t` read it (R166, log 6). -/
def stoppedAfter (t : State) : Bool := Config.stopped t.draws

/-- EXEC's instrumented loop (R166): at most `n` turns, ended early by the stopped flag; with the number of ticks run. -/
def State.watchedTicks (ch : Chips) : Nat → State → State × Nat
  | 0, s => (s, 0)
  | n + 1, s =>
    let t := s.watchedTick ch
    if stoppedAfter t then (t, 1)
    else
      let r := State.watchedTicks ch n t
      (r.1, r.2 + 1)

/-- EXEC's loop in either mode, and the number of ticks it ran (R165, R166). -/
def State.execLoop (ch : Chips) (mode : ExecMode) (n : Nat) (s : State) : State × Nat :=
  match mode with
  | .freeRun => (s.ticks ch n, n)
  | .instrumented => s.watchedTicks ch n

/-- EXEC once admitted (R164 to R168): the loop, then keyboard time by the full elapsed time, then the tick count. -/
def State.execRun (ch : Chips) (mode : ExecMode) (e : Nat) (s : State) : State :=
  let r := s.closeConfig.execLoop ch mode (ticksFor e)
  (r.1.kbdAdvance e).answer (.count r.2)

/-- EXEC (R164): instrumented mode needs a debug hook (R166, D32). -/
def State.execOp (ch : Chips) (mode : ExecMode) (e : Nat) (s : State) : State :=
  if mode = .instrumented ∧ s.params.debugHook = false then s.refuse .noDebugHook else s.execRun ch mode e

end Sys2Proof.Machine
end

