-- ==== Sys2Proof/Machine/BusIo.lean ====
section
/-! DEFINITION. The I/O-window classes (41_bus_transactions.md R115 to R122): each is one tick in which the memory map is not
touched and the chips that address bits 4 and 5 name are selected, with the VIC besides where VIC_SEL holds (R138). -/

namespace Sys2Proof.Machine

/-- IO_RD_NONE (R115): a read with neither IO chip selected. -/
def execIoRdNone (a : Addr) (s : State) : Host.Outcome State Fault Refusal := tickOp (State.ioReadCycle Config.chips false false a) s

/-- IO_WR_NONE (R116): a write with neither IO chip selected. -/
def execIoWrNone (a : Addr) (d : Byte) (s : State) : Host.Outcome State Fault Refusal := tickOp (State.ioWriteCycle Config.chips false false a d) s

/-- IO_RD_C1 (R117): a read with IOC1 selected. -/
def execIoRdC1 (a : Addr) (s : State) : Host.Outcome State Fault Refusal := tickOp (State.ioReadCycle Config.chips true false a) s

/-- IO_WR_C1 (R118): a write with IOC1 selected. -/
def execIoWrC1 (a : Addr) (d : Byte) (s : State) : Host.Outcome State Fault Refusal := tickOp (State.ioWriteCycle Config.chips true false a d) s

/-- IO_RD_C2 (R119): a read with IOC2 selected. -/
def execIoRdC2 (a : Addr) (s : State) : Host.Outcome State Fault Refusal := tickOp (State.ioReadCycle Config.chips false true a) s

/-- IO_WR_C2 (R120): a write with IOC2 selected. -/
def execIoWrC2 (a : Addr) (d : Byte) (s : State) : Host.Outcome State Fault Refusal := tickOp (State.ioWriteCycle Config.chips false true a d) s

/-- IO_RD_C12 (R121): a read with both IO chips selected. -/
def execIoRdC12 (a : Addr) (s : State) : Host.Outcome State Fault Refusal := tickOp (State.ioReadCycle Config.chips true true a) s

/-- IO_WR_C12 (R122): a write with both IO chips selected. -/
def execIoWrC12 (a : Addr) (d : Byte) (s : State) : Host.Outcome State Fault Refusal := tickOp (State.ioWriteCycle Config.chips true true a d) s

end Sys2Proof.Machine
end

