-- ==== Sys2Proof/Machine/BusMemory.lean ====
section
/-! DEFINITION. The CPU-space memory classes (41_bus_transactions.md R105 to R114 and R123 to R132): each is one tick whose bus
cycle is one transaction of the memory map. Which bank it reaches, if any, is the region table's business (R140). -/

namespace Sys2Proof.Machine

/-- RD_ZP (R105): a read of the zero page and stack, 0x0000–0x03FF. -/
def execRdZp (a : Addr) (s : State) : Host.Outcome State Fault Refusal := tickOp (State.memReadCycle Config.chips a) s

/-- WR_ZP (R106): a write of the zero page and stack, 0x0000–0x03FF. -/
def execWrZp (a : Addr) (d : Byte) (s : State) : Host.Outcome State Fault Refusal := tickOp (State.memWriteCycle Config.chips a d) s

/-- RD_RSV0_A (R107): a read of the reserved range 0x0400–0x07FF. -/
def execRdRsv0A (a : Addr) (s : State) : Host.Outcome State Fault Refusal := tickOp (State.memReadCycle Config.chips a) s

/-- WR_RSV0_A (R108): a write of the reserved range 0x0400–0x07FF. -/
def execWrRsv0A (a : Addr) (d : Byte) (s : State) : Host.Outcome State Fault Refusal := tickOp (State.memWriteCycle Config.chips a d) s

/-- RD_RSV0_B (R107): a read of the reserved range 0x0800–0x0FFF. -/
def execRdRsv0B (a : Addr) (s : State) : Host.Outcome State Fault Refusal := tickOp (State.memReadCycle Config.chips a) s

/-- WR_RSV0_B (R108): a write of the reserved range 0x0800–0x0FFF. -/
def execWrRsv0B (a : Addr) (d : Byte) (s : State) : Host.Outcome State Fault Refusal := tickOp (State.memWriteCycle Config.chips a d) s

/-- RD_RAM (R109): a read of main RAM, 0x1000–0x1FFF. -/
def execRdRam (a : Addr) (s : State) : Host.Outcome State Fault Refusal := tickOp (State.memReadCycle Config.chips a) s

/-- WR_RAM (R110): a write of main RAM, 0x1000–0x1FFF. -/
def execWrRam (a : Addr) (d : Byte) (s : State) : Host.Outcome State Fault Refusal := tickOp (State.memWriteCycle Config.chips a d) s

/-- RD_RSV1_A (R111): a read of the reserved range 0x2000–0x3FFF, where EXP0 may be. -/
def execRdRsv1A (a : Addr) (s : State) : Host.Outcome State Fault Refusal := tickOp (State.memReadCycle Config.chips a) s

/-- WR_RSV1_A (R112): a write of the reserved range 0x2000–0x3FFF, where EXP0 may be. -/
def execWrRsv1A (a : Addr) (d : Byte) (s : State) : Host.Outcome State Fault Refusal := tickOp (State.memWriteCycle Config.chips a d) s

/-- RD_RSV1_B (R111): a read of the reserved range 0x4000–0x7FFF, where EXP1 and EXP2 may be. -/
def execRdRsv1B (a : Addr) (s : State) : Host.Outcome State Fault Refusal := tickOp (State.memReadCycle Config.chips a) s

/-- WR_RSV1_B (R112): a write of the reserved range 0x4000–0x7FFF, where EXP1 and EXP2 may be. -/
def execWrRsv1B (a : Addr) (d : Byte) (s : State) : Host.Outcome State Fault Refusal := tickOp (State.memWriteCycle Config.chips a d) s

/-- RD_CHAR (R113): a read of the character ROM, 0x8000–0x8FFF. -/
def execRdChar (a : Addr) (s : State) : Host.Outcome State Fault Refusal := tickOp (State.memReadCycle Config.chips a) s

/-- WR_CHAR (R114): a write of the character ROM, 0x8000–0x8FFF. -/
def execWrChar (a : Addr) (d : Byte) (s : State) : Host.Outcome State Fault Refusal := tickOp (State.memWriteCycle Config.chips a d) s

/-- RD_COLOR (R123): a read of color RAM, 0x9400–0x97FF. -/
def execRdColor (a : Addr) (s : State) : Host.Outcome State Fault Refusal := tickOp (State.memReadCycle Config.chips a) s

/-- WR_COLOR (R124): a write of color RAM, 0x9400–0x97FF. -/
def execWrColor (a : Addr) (d : Byte) (s : State) : Host.Outcome State Fault Refusal := tickOp (State.memWriteCycle Config.chips a d) s

/-- RD_RSV2 (R125): a read of the reserved range 0x9800–0x9FFF. -/
def execRdRsv2 (a : Addr) (s : State) : Host.Outcome State Fault Refusal := tickOp (State.memReadCycle Config.chips a) s

/-- WR_RSV2 (R126): a write of the reserved range 0x9800–0x9FFF. -/
def execWrRsv2 (a : Addr) (d : Byte) (s : State) : Host.Outcome State Fault Refusal := tickOp (State.memWriteCycle Config.chips a d) s

/-- RD_RSV3 (R127): a read of the reserved range 0xA000–0xBFFF, where a cartridge or EXP3 may be. -/
def execRdRsv3 (a : Addr) (s : State) : Host.Outcome State Fault Refusal := tickOp (State.memReadCycle Config.chips a) s

/-- WR_RSV3 (R128): a write of the reserved range 0xA000–0xBFFF, where a cartridge or EXP3 may be. -/
def execWrRsv3 (a : Addr) (d : Byte) (s : State) : Host.Outcome State Fault Refusal := tickOp (State.memWriteCycle Config.chips a d) s

/-- RD_BASIC (R129): a read of the BASIC ROM, 0xC000–0xDFFF. -/
def execRdBasic (a : Addr) (s : State) : Host.Outcome State Fault Refusal := tickOp (State.memReadCycle Config.chips a) s

/-- WR_BASIC (R130): a write of the BASIC ROM, 0xC000–0xDFFF. -/
def execWrBasic (a : Addr) (d : Byte) (s : State) : Host.Outcome State Fault Refusal := tickOp (State.memWriteCycle Config.chips a d) s

/-- RD_KERNAL (R131): a read of the KERNAL ROM, 0xE000–0xFFFF. -/
def execRdKernal (a : Addr) (s : State) : Host.Outcome State Fault Refusal := tickOp (State.memReadCycle Config.chips a) s

/-- WR_KERNAL (R132): a write of the KERNAL ROM, 0xE000–0xFFFF. -/
def execWrKernal (a : Addr) (d : Byte) (s : State) : Host.Outcome State Fault Refusal := tickOp (State.memWriteCycle Config.chips a d) s

end Sys2Proof.Machine
end

