-- ==== Sys2Proof/Machine/VideoFetch.lean ====
section
/-! DEFINITION. The video-fetch classes (41_bus_transactions.md R133 to R137): each is one VFetch, which writes no state of the
block. The fetch capability has no validity check of its own (log 21). -/

namespace Sys2Proof.Machine

/-- One fetch on its own (R78): its 16 bits are the answer, and one draw is made. -/
def State.fetchOnce (va : VAddr) (s : State) : State := (s.answer (.word (s.vfetch 0 (va.setWidth 16)))).drawn

/-- VF_CHAR (R133): a fetch from character ROM. -/
def execVfChar (va : VAddr) (s : State) : Host.Outcome State Fault Refusal := .next (s.fetchOnce va)

/-- VF_GAP0 (R134): a fetch from the gap 0x1000–0x1FFF. -/
def execVfGap0 (va : VAddr) (s : State) : Host.Outcome State Fault Refusal := .next (s.fetchOnce va)

/-- VF_ZP (R135): a fetch from the zero page. -/
def execVfZp (va : VAddr) (s : State) : Host.Outcome State Fault Refusal := .next (s.fetchOnce va)

/-- VF_GAP1_A (R136): a fetch from the gap 0x2400–0x27FF. -/
def execVfGap1A (va : VAddr) (s : State) : Host.Outcome State Fault Refusal := .next (s.fetchOnce va)

/-- VF_GAP1_B (R136): a fetch from the gap 0x2800–0x2FFF. -/
def execVfGap1B (va : VAddr) (s : State) : Host.Outcome State Fault Refusal := .next (s.fetchOnce va)

/-- VF_RAM (R137): a fetch from main RAM. -/
def execVfRam (va : VAddr) (s : State) : Host.Outcome State Fault Refusal := .next (s.fetchOnce va)

end Sys2Proof.Machine
end

