-- ==== Sys2Proof/Machine/HostOps.lean ====
section
/-! DEFINITION. The host operations on time, memory and the block's life (43_host_operations.md, 70_reset_and_hazards.md). -/

namespace Sys2Proof.Machine

/-- TICK (R163): one tick of the external chips (R81). -/
def execTick (s : State) : Host.Outcome State Fault Refusal := tickOp (State.tick Config.chips) s

/-- EXEC (R164 to R168). -/
def execExec (mode : ExecMode) (e : Nat) (s : State) : Host.Outcome State Fault Refusal := operate (State.execOp Config.chips mode e) s

/-- RESET (R201, R202). -/
def execReset (s : State) : Host.Outcome State Fault Refusal := operate (fun s => (s.resetBlock Config.chips).answer .none) s

/-- QUICKLOAD (R169, R170). -/
def execQuickload (p : List Byte) (s : State) : Host.Outcome State Fault Refusal := operate (State.quickload p) s

/-- CART_INSERT (R171). -/
def execCartInsert (p : List Byte) (s : State) : Host.Outcome State Fault Refusal := operate (State.cartInsert p) s

/-- MAP_REGION (R172): an id that names no bank is refused as a region. -/
def execMapRegion (sp : Space) (acc : Access) (layer : Layer) (bank : BitVec 4) (base : Addr) (len off : Nat) (s : State) :
    Host.Outcome State Fault Refusal :=
  operate (fun s =>
    match Bank.ofId bank with
    | some b => s.mapRegion sp { base := base, len := len, bank := b, off := off, acc := acc, layer := layer }
    | none => s.refuse .region) s

/-- MEM_READ (R173). -/
def execMemRead (sp : Space) (a : Addr) (s : State) : Host.Outcome State Fault Refusal := operate (fun s => s.answer (.byte (s.memRead sp a))) s

/-- MEM_WRITE (R174). -/
def execMemWrite (sp : Space) (a : Addr) (d : Byte) (s : State) : Host.Outcome State Fault Refusal :=
  operate (fun s => (s.memWrite sp a d).answer .none) s

/-- VFETCH (R175). -/
def execVfetch (va : VAddr) (s : State) : Host.Outcome State Fault Refusal := operate (State.fetchOnce va) s

/-- DISCARD (R176). -/
def execDiscard (s : State) : Host.Outcome State Fault Refusal := operate (fun s => s.discard.answer .none) s

end Sys2Proof.Machine
end

