-- ==== Sys2Proof/Machine/KeyboardOps.lean ====
section
/-! DEFINITION. The keyboard operations (42_keyboard.md): registrations in the configuration phase, keys, keyboard time, and
the host's scan. -/

namespace Sys2Proof.Machine

/-- A registration (R142, R143): admitted only in the configuration phase (R144). -/
def State.configure (k : Keyboard) (s : State) : State :=
  if s.configPhase then (s.setKbd k).answer .none else s.refuse .configClosed

/-- MOD_REGISTER (R142, R144). -/
def execModRegister (m : BitVec 1) (col row : BitVec 3) (s : State) : Host.Outcome State Fault Refusal :=
  operate (fun s => s.configure (s.kbd.bindModifier m { col := col, row := row })) s

/-- KEY_REGISTER (R143, R144). -/
def execKeyRegister (code : Byte) (col row : BitVec 3) (mask : BitVec 2) (s : State) : Host.Outcome State Fault Refusal :=
  operate (fun s => s.configure (s.kbd.registerKey code { cell := { col := col, row := row }, mask := mask })) s

/-- KEY_DOWN (R145, R147). -/
def execKeyDown (code : Byte) (s : State) : Host.Outcome State Fault Refusal :=
  operate (fun s => (s.closeConfig.setKbd (s.kbd.keyDown code)).answer .none) s

/-- KEY_UP (R146, R147, R156). -/
def execKeyUp (code : Byte) (s : State) : Host.Outcome State Fault Refusal :=
  operate (fun s => (s.closeConfig.setKbd (s.kbd.keyUp s.params.kbdHoldUs code)).answer .none) s

/-- KBD_ADVANCE (R148, R149). -/
def execKbdAdvance (u : Nat) (s : State) : Host.Outcome State Fault Refusal :=
  operate (fun s => (s.closeConfig.kbdAdvance u).answer .none) s

/-- SCAN (R150, R151): the active-low rows of the given columns; the grid is only read. -/
def execScan (cols : Byte) (s : State) : Host.Outcome State Fault Refusal :=
  operate (fun s => s.closeConfig.answer (.byte (s.kbd.scan cols))) s

end Sys2Proof.Machine
end

