-- ==== Sys2Proof/Machine/Dispatch.lean ====
section
/-! DEFINITION. One arm per operation: its meaning. -/

namespace Sys2Proof.Machine

/-- The meaning of an operation in a state. -/
def exec (i : Instr) (s : State) : Host.Outcome State Fault Refusal :=
  match i with
  | .rdZp a => Sys2Proof.Machine.execRdZp a s
  | .wrZp a d => Sys2Proof.Machine.execWrZp a d s
  | .rdRsv0A a => Sys2Proof.Machine.execRdRsv0A a s
  | .wrRsv0A a d => Sys2Proof.Machine.execWrRsv0A a d s
  | .rdRsv0B a => Sys2Proof.Machine.execRdRsv0B a s
  | .wrRsv0B a d => Sys2Proof.Machine.execWrRsv0B a d s
  | .rdRam a => Sys2Proof.Machine.execRdRam a s
  | .wrRam a d => Sys2Proof.Machine.execWrRam a d s
  | .rdRsv1A a => Sys2Proof.Machine.execRdRsv1A a s
  | .wrRsv1A a d => Sys2Proof.Machine.execWrRsv1A a d s
  | .rdRsv1B a => Sys2Proof.Machine.execRdRsv1B a s
  | .wrRsv1B a d => Sys2Proof.Machine.execWrRsv1B a d s
  | .rdChar a => Sys2Proof.Machine.execRdChar a s
  | .wrChar a d => Sys2Proof.Machine.execWrChar a d s
  | .ioRdNone a => Sys2Proof.Machine.execIoRdNone a s
  | .ioWrNone a d => Sys2Proof.Machine.execIoWrNone a d s
  | .ioRdC1 a => Sys2Proof.Machine.execIoRdC1 a s
  | .ioWrC1 a d => Sys2Proof.Machine.execIoWrC1 a d s
  | .ioRdC2 a => Sys2Proof.Machine.execIoRdC2 a s
  | .ioWrC2 a d => Sys2Proof.Machine.execIoWrC2 a d s
  | .ioRdC12 a => Sys2Proof.Machine.execIoRdC12 a s
  | .ioWrC12 a d => Sys2Proof.Machine.execIoWrC12 a d s
  | .rdColor a => Sys2Proof.Machine.execRdColor a s
  | .wrColor a d => Sys2Proof.Machine.execWrColor a d s
  | .rdRsv2 a => Sys2Proof.Machine.execRdRsv2 a s
  | .wrRsv2 a d => Sys2Proof.Machine.execWrRsv2 a d s
  | .rdRsv3 a => Sys2Proof.Machine.execRdRsv3 a s
  | .wrRsv3 a d => Sys2Proof.Machine.execWrRsv3 a d s
  | .rdBasic a => Sys2Proof.Machine.execRdBasic a s
  | .wrBasic a d => Sys2Proof.Machine.execWrBasic a d s
  | .rdKernal a => Sys2Proof.Machine.execRdKernal a s
  | .wrKernal a d => Sys2Proof.Machine.execWrKernal a d s
  | .vfChar va => Sys2Proof.Machine.execVfChar va s
  | .vfGap0 va => Sys2Proof.Machine.execVfGap0 va s
  | .vfZp va => Sys2Proof.Machine.execVfZp va s
  | .vfGap1A va => Sys2Proof.Machine.execVfGap1A va s
  | .vfGap1B va => Sys2Proof.Machine.execVfGap1B va s
  | .vfRam va => Sys2Proof.Machine.execVfRam va s
  | .tick => Sys2Proof.Machine.execTick s
  | .exec mode e => Sys2Proof.Machine.execExec mode e s
  | .reset => Sys2Proof.Machine.execReset s
  | .keyDown code => Sys2Proof.Machine.execKeyDown code s
  | .keyUp code => Sys2Proof.Machine.execKeyUp code s
  | .kbdAdvance u => Sys2Proof.Machine.execKbdAdvance u s
  | .scan cols => Sys2Proof.Machine.execScan cols s
  | .quickload p => Sys2Proof.Machine.execQuickload p s
  | .cartInsert p => Sys2Proof.Machine.execCartInsert p s
  | .mapRegion sp acc layer bank base len off => Sys2Proof.Machine.execMapRegion sp acc layer bank base len off s
  | .keyRegister code col row mask => Sys2Proof.Machine.execKeyRegister code col row mask s
  | .modRegister m col row => Sys2Proof.Machine.execModRegister m col row s
  | .memRead sp a => Sys2Proof.Machine.execMemRead sp a s
  | .memWrite sp a d => Sys2Proof.Machine.execMemWrite sp a d s
  | .vfetch va => Sys2Proof.Machine.execVfetch va s
  | .discard => Sys2Proof.Machine.execDiscard s

end Sys2Proof.Machine
end

