-- ==== Sys2Proof/Machine/Step.lean ====
section
/-! DEFINITION. One step: the next frame of the input is decoded and executed (log 1). -/

namespace Sys2Proof.Machine

/-- One step. With no input pending the block does nothing: it ticks only when the host calls it (60_exceptions.md R198). A
frame that decodes is executed, taken from the input; one that does not is refused by name (30_encoding.md R72, R77). -/
def step (s : State) : Host.Outcome State Fault Refusal :=
  match s.inbox with
  | [] => idle s
  | f :: rest =>
    match decode f with
    | .ok i => exec i (s.withInbox rest)
    | .error _ => rejectFrame (s.withInbox rest)

/-- The state with a word of spec/opcode_table.json next in its input (log 1, log 22). -/
def State.withFetchWord (s : State) (nbits w : Nat) : State :=
  match frameOfTable nbits w with
  | some f => s.withInbox (f :: s.inbox)
  | none => s

end Sys2Proof.Machine
end

