-- ==== Sys2Proof/Laws/Memory.lean ====
section
/-! SUPPORT. The laws of the key lists and of bank memory: read after write, and the canonical form kept. -/

namespace Sys2Proof.Machine

variable {α : Type}

theorem assocFind_insert_self (l : List (Nat × α)) (k : Nat) (v : α) : assocFind (assocInsert l k v) k = some v := by
  induction l with
  | nil => simp [assocInsert, assocFind]
  | cons c t ih =>
    obtain ⟨k', v'⟩ := c
    simp only [assocInsert]
    split
    · simp [assocFind]
    · split
      · simp [assocFind]
      · next h => simp [assocFind, Ne.symm h, ih]

theorem assocFind_insert_other (l : List (Nat × α)) {k j : Nat} (v : α) (h : j ≠ k) :
    assocFind (assocInsert l k v) j = assocFind l j := by
  induction l with
  | nil => simp [assocInsert, assocFind, Ne.symm h]
  | cons c t ih =>
    obtain ⟨k', v'⟩ := c
    simp only [assocInsert]
    split
    · simp [assocFind, Ne.symm h]
    · split
      · next e => subst e; simp [assocFind, Ne.symm h]
      · simp only [assocFind, ih]

theorem assocFind_filter (l : List (Nat × α)) (p : Nat → Bool) (k : Nat) :
    assocFind (l.filter (fun c => p c.1)) k = if p k then assocFind l k else none := by
  induction l with
  | nil => simp [assocFind]
  | cons c t ih =>
    obtain ⟨k', v'⟩ := c
    by_cases hp : p k'
    · simp only [List.filter_cons, hp, if_true, assocFind, ih]
      split
      · next e => subst e; simp [hp]
      · rfl
    · simp only [List.filter_cons, hp, assocFind, ih, Bool.false_eq_true, if_false]
      split
      · next hk => rw [if_neg]; rintro rfl; exact hp hk
      · rfl

theorem assocFind_erase_self (l : List (Nat × α)) (k : Nat) : assocFind (assocErase l k) k = none := by
  simp [assocErase, assocFind_filter l (· != k)]

theorem assocFind_erase_other (l : List (Nat × α)) {k j : Nat} (h : j ≠ k) : assocFind (assocErase l k) j = assocFind l j := by
  simp [assocErase, assocFind_filter l (· != k), h]

theorem assocFind_mem {l : List (Nat × α)} {k : Nat} {v : α} (h : assocFind l k = some v) : (k, v) ∈ l := by
  induction l with
  | nil => simp [assocFind] at h
  | cons c t ih =>
    obtain ⟨k', v'⟩ := c
    simp only [assocFind] at h
    split at h
    · next e => cases h; subst e; simp
    · exact List.mem_cons_of_mem _ (ih h)

theorem mem_assocInsert {l : List (Nat × α)} {k : Nat} {v : α} {c : Nat × α} (h : c ∈ assocInsert l k v) :
    c = (k, v) ∨ c ∈ l := by
  induction l with
  | nil => simpa [assocInsert] using h
  | cons d t ih =>
    simp only [assocInsert] at h
    split at h
    · simpa using h
    · split at h
      · rcases List.mem_cons.mp h with h | h
        · exact .inl h
        · exact .inr (List.mem_cons_of_mem _ h)
      · rcases List.mem_cons.mp h with h | h
        · exact .inr (h ▸ List.mem_cons_self)
        · exact (ih h).imp id (List.mem_cons_of_mem _)

theorem assocInsert_sorted {l : List (Nat × α)} (k : Nat) (v : α) (h : AssocSorted l) : AssocSorted (assocInsert l k v) := by
  induction l with
  | nil => simp [assocInsert, AssocSorted]
  | cons c t ih =>
    obtain ⟨k', v'⟩ := c
    have ⟨hc, ht⟩ := List.pairwise_cons.mp h
    simp only [assocInsert]
    split
    · next hk =>
      refine List.pairwise_cons.mpr ⟨fun d hd => ?_, h⟩
      rcases List.mem_cons.mp hd with rfl | hd
      · exact hk
      · exact Nat.lt_trans hk (hc d hd)
    · split
      · next e => subst e; exact List.pairwise_cons.mpr ⟨hc, ht⟩
      · next hlt hne =>
        refine List.pairwise_cons.mpr ⟨fun d hd => ?_, ih ht⟩
        rcases mem_assocInsert hd with rfl | hd
        · simp only; omega
        · exact hc d hd

theorem assocErase_sorted {l : List (Nat × α)} (k : Nat) (h : AssocSorted l) : AssocSorted (assocErase l k) := h.filter _

/-- Read after write at the same cell (20_memory.md R47). -/
@[simp] theorem Memory.read_write_self (m : List Host.Cell) (k : Nat) (v : Byte) : Memory.read (Memory.write m k v) k = v := by
  unfold Memory.read Memory.write
  split
  · next e => simp [assocFind_erase_self, e]
  · simp [assocFind_insert_self]

/-- A write leaves every other cell alone (20_memory.md R46, R58). -/
theorem Memory.read_write_other (m : List Host.Cell) {k j : Nat} (v : Byte) (h : j ≠ k) :
    Memory.read (Memory.write m k v) j = Memory.read m j := by
  unfold Memory.read Memory.write
  split
  · simp [assocFind_erase_other m h]
  · simp [assocFind_insert_other m v h]

theorem Memory.read_write (m : List Host.Cell) (k j : Nat) (v : Byte) :
    Memory.read (Memory.write m k v) j = if j = k then v else Memory.read m j := by
  split
  · next e => subst e; simp
  · next h => exact Memory.read_write_other m v h

theorem Memory.mem_write {m : List Host.Cell} {k : Nat} {v : Byte} {c : Host.Cell} (h : c ∈ Memory.write m k v) :
    c.1 = k ∨ c ∈ m := by
  unfold Memory.write at h
  split at h
  · exact .inr (List.mem_of_mem_filter h)
  · exact (mem_assocInsert h).imp (fun e => by rw [e]) id

/-- Every write keeps the canonical form. -/
theorem Memory.write_wf {m : List Host.Cell} (k : Nat) (v : Byte) (h : Memory.wf m) : Memory.wf (Memory.write m k v) := by
  unfold Memory.write
  split
  · exact ⟨assocErase_sorted k h.1, fun c hc => h.2 c (List.mem_of_mem_filter hc)⟩
  · next hv =>
    refine ⟨assocInsert_sorted k v h.1, fun c hc => ?_⟩
    rcases mem_assocInsert hc with rfl | hc
    · exact hv
    · exact h.2 c hc

theorem Memory.dropBank_wf {m : List Host.Cell} (b : Bank) (h : Memory.wf m) : Memory.wf (Memory.dropBank m b) :=
  ⟨h.1.filter _, fun c hc => h.2 c (List.mem_of_mem_filter hc)⟩

theorem Memory.read_dropBank (m : List Host.Cell) (b : Bank) (k : Nat) :
    Memory.read (Memory.dropBank m b) k = if k / 0x2000 = b.id then Config.powerOn k else Memory.read m k := by
  unfold Memory.read Memory.dropBank
  rw [assocFind_filter m (fun k => k / 0x2000 != b.id)]
  by_cases h : k / 0x2000 = b.id <;> simp [h]

theorem Memory.writeRun_wf {m : List Host.Cell} (k : Nat) (vs : List Byte) (h : Memory.wf m) :
    Memory.wf (Memory.writeRun m k vs) := by
  induction vs generalizing m k with
  | nil => exact h
  | cons v vs ih => exact ih (k + 1) (Memory.write_wf k v h)

theorem Memory.mem_writeRun {m : List Host.Cell} {k : Nat} {vs : List Byte} {c : Host.Cell} (h : c ∈ Memory.writeRun m k vs) :
    (k ≤ c.1 ∧ c.1 < k + vs.length) ∨ c ∈ m := by
  induction vs generalizing m k with
  | nil => exact .inr h
  | cons v vs ih =>
    simp only [List.length_cons]
    rcases ih h with h | h
    · exact .inl (by omega)
    · rcases Memory.mem_write h with h | h
      · exact .inl (by omega)
      · exact .inr h

/-- What a run of bytes leaves in every cell. -/
theorem Memory.read_writeRun (m : List Host.Cell) (k : Nat) (vs : List Byte) (j : Nat) :
    Memory.read (Memory.writeRun m k vs) j =
      if h : k ≤ j ∧ j - k < vs.length then vs[j - k]'h.2 else Memory.read m j := by
  induction vs generalizing m k with
  | nil => simp [Memory.writeRun]
  | cons v vs ih =>
    rw [Memory.writeRun, ih]
    by_cases hj : j = k
    · subst hj
      have h1 : ¬(j + 1 ≤ j ∧ j - (j + 1) < vs.length) := by omega
      rw [dif_neg h1, dif_pos (by simp)]
      simp
    · by_cases h : k + 1 ≤ j ∧ j - (k + 1) < vs.length
      · have h2 : k ≤ j ∧ j - k < (v :: vs).length := by simp only [List.length_cons]; omega
        rw [dif_pos h, dif_pos h2]
        have : j - k = (j - (k + 1)) + 1 := by omega
        simp [this]
      · have h2 : ¬(k ≤ j ∧ j - k < (v :: vs).length) := by simp only [List.length_cons]; omega
        rw [dif_neg h, dif_neg h2, Memory.read_write_other m v hj]

/-- Two banks' cells have different keys, below the banks' common span. -/
theorem cellKey_inj {b c : Bank} {i j : Nat} (hi : i < 0x2000) (hj : j < 0x2000) (h : cellKey b i = cellKey c j) :
    b = c ∧ i = j := by
  have hid : b.id = c.id := by unfold cellKey at h; omega
  have hb : b = c := by
    revert hid; cases b <;> cases c <;> simp [Bank.id]
  subst hb
  unfold cellKey at h
  exact ⟨rfl, by omega⟩

end Sys2Proof.Machine
end

