-- ==== Sys2Proof/Machine/Construct.lean ====
section
/-! DEFINITION. Construction (43_host_operations.md R162, 60_exceptions.md R187, 42_keyboard.md R154): the host's configuration,
checked, gives the state or a configuration fault. Construction has no HOST word. -/

namespace Sys2Proof.Machine

/-- The configuration the host constructs the block with (R32, R162). A missing ROM image is an empty one. The debug callback
and the stop flag are given or not, and so is KBD_HOLD_US. -/
structure Setup where
  char       : List Byte
  basic      : List Byte
  kernal     : List Byte
  sampleRate : Nat
  volume     : Nat
  audioCap   : Nat
  audioMax   : Nat
  debugCb    : Bool
  stopFlag   : Bool
  joystick   : Bool
  vicSel     : List Addr
  expPresent : Vector Bool 4
  kbdHoldUs  : Option Nat
  pinReset   : PinReset
deriving DecidableEq, Repr

/-- The parameters of the block a configuration makes: KBD_HOLD_US is 0 where it is not given (R7, D24). -/
def setupParams (c : Setup) : Params :=
  { vicSel := c.vicSel, expPresent := c.expPresent, kbdHoldUs := c.kbdHoldUs.getD 0, sampleRate := c.sampleRate,
    volume := c.volume, audioCap := c.audioCap, audioMax := c.audioMax, debugHook := c.debugCb, pinReset := c.pinReset }

/-- The memory that holds the three ROM images (R21). -/
def romMemory (char basic kernal : List Byte) : List Host.Cell :=
  Memory.writeRun (Memory.writeRun (Memory.writeRun [] (cellKey .char 0) char) (cellKey .basic 0) basic) (cellKey .kernal 0) kernal

/-- `construct(cfg)` (R162): the three configuration faults in the source's order, then the joystick's refusal (log 18), then
the state of R35 with the images in the ROM banks. -/
def construct (c : Setup) : Host.Outcome State Fault Refusal :=
  if c.char.length ≠ 0x1000 ∨ c.basic.length ≠ 0x2000 ∨ c.kernal.length ≠ 0x2000 then .fault .romSize
  else if c.audioMax < c.audioCap ∨ c.audioCap = 0 then .fault .audioCap
  else if c.debugCb = true ∧ c.stopFlag = false then .fault .debugStop
  else if c.joystick then .refused .joystick
  else .next { State.constructed (setupParams c) with mem := romMemory c.char c.basic c.kernal }

end Sys2Proof.Machine
end

