-- ==== Sys2Proof/Laws/Construct.lean ====
section
/-! SUPPORT. What construction leaves in the ROM banks (43_host_operations.md R162, 10_state.md R21, R35). -/

namespace Sys2Proof.Machine

/-- A run written over a whole bank holds the run's bytes there. -/
theorem Memory.read_writeRun_bank (m : List Host.Cell) (b : Bank) (vs : List Byte) {k : Nat} (hk : k < vs.length) :
    Memory.read (Memory.writeRun m (cellKey b 0) vs) (cellKey b k) = vs.getD k 0 := by
  have hi : cellKey b k - cellKey b 0 = k := by unfold cellKey; omega
  rw [Memory.read_writeRun, dif_pos ⟨by unfold cellKey; omega, by rw [hi]; exact hk⟩, List.getD_eq_getElem _ _ hk]
  exact getElem_congr_idx hi

/-- A run written over one bank leaves the cells of every other bank. -/
theorem Memory.read_writeRun_otherBank (m : List Host.Cell) {b c : Bank} (vs : List Byte) {k : Nat} (hb : c ≠ b)
    (hv : vs.length ≤ cartMax) (hk : k < cartMax) :
    Memory.read (Memory.writeRun m (cellKey b 0) vs) (cellKey c k) = Memory.read m (cellKey c k) := by
  rw [Memory.read_writeRun, dif_neg]
  rintro ⟨h1, h2⟩
  have he : cellKey c k = cellKey b (cellKey c k - cellKey b 0) := by unfold cellKey at *; omega
  exact hb (cellKey_inj hk (Nat.lt_of_lt_of_le h2 hv) he).1

/-- The three images are read back from their banks, byte by byte. -/
theorem romMemory_read {char basic kernal : List Byte} (hc : char.length ≤ cartMax) (hb : basic.length ≤ cartMax)
    (hk : kernal.length ≤ cartMax) :
    (∀ i, i < char.length → Memory.read (romMemory char basic kernal) (cellKey .char i) = char.getD i 0) ∧
    (∀ i, i < basic.length → Memory.read (romMemory char basic kernal) (cellKey .basic i) = basic.getD i 0) ∧
    (∀ i, i < kernal.length → Memory.read (romMemory char basic kernal) (cellKey .kernal i) = kernal.getD i 0) := by
  unfold romMemory
  refine ⟨fun i hi => ?_, fun i hi => ?_, fun i hi => Memory.read_writeRun_bank _ _ _ hi⟩
  · have hm := Nat.lt_of_lt_of_le hi hc
    rw [Memory.read_writeRun_otherBank _ _ (by decide) hk hm, Memory.read_writeRun_otherBank _ _ (by decide) hb hm]
    exact Memory.read_writeRun_bank _ _ _ hi
  · rw [Memory.read_writeRun_otherBank _ _ (by decide) hk (Nat.lt_of_lt_of_le hi hb)]
    exact Memory.read_writeRun_bank _ _ _ hi

end Sys2Proof.Machine
end

