-- ==== Sys2Proof/Safety.lean ====
section
/-! DEFINITION. The terms claims use: the block's invariant, the rows of the opcode tables as masks and matches, and small
predicates on operations and frames. -/

namespace Sys2Proof.Machine

/-- A region that may stand in a table (R24, R38(a), R38(b)): a nonempty range below 0x10000, inside a fitted bank. The
cartridge's bank counts at its largest, since a later, shorter cartridge may leave an alias behind (log 14). -/
abbrev RegionOk (fitted : Vector Bool 4) (r : Region) : Prop :=
  1 ≤ r.len ∧ r.base.toNat + r.len ≤ 0x10000 ∧ r.bank.present fitted = true ∧ r.off + r.len ≤ r.bank.size cartMax

/-- Two regions never share a layer and an address (R38(d)). -/
abbrev Apart (r q : Region) : Prop := (r.layer == q.layer && r.overlaps q) = false

/-- A region table that registrations can have built (R38). -/
abbrev TableOk (fitted : Vector Bool 4) (rs : List Region) : Prop := (∀ r ∈ rs, RegionOk fitted r) ∧ rs.Pairwise Apart

/-- The key belongs to a cell of a fitted bank (R21 to R23). -/
def KeyInBank (fitted : Vector Bool 4) (k : Nat) : Prop :=
  ∃ (b : Bank) (i : Nat), b.present fitted = true ∧ i < b.size cartMax ∧ k = cellKey b i

/-- What holds of the block after construction and after every step: memory in canonical form and inside the banks, region
tables that R38 admits, a cartridge that fits its window (R23), a keymap with one registration per code (R143), a release
pending only while its cell is young (R168), an audio capacity that construction admits (R7, D30), and a sample buffer of
AUDIO_CAP entries with its position inside (R29). -/
structure State.Inv (s : State) : Prop where
  memCanonical : Memory.wf s.mem
  memInside    : ∀ c ∈ s.mem, KeyInBank s.params.expPresent c.1
  cartFits     : s.cartLen ≤ cartMax
  cpuTable     : TableOk s.params.expPresent s.regionsCpu
  vidTable     : TableOk s.params.expPresent s.regionsVid
  keymapSorted : AssocSorted s.kbd.keymap
  pendYoung    : ∀ x, (s.kbd.cell x).pend = true → (s.kbd.cell x).age < s.params.kbdHoldUs
  audioBounded : s.params.Admitted
  audioLength  : s.audio.buf.length = s.params.audioCap
  audioInside  : s.audio.pos < s.params.audioCap

/-- A run that met no refusal and is still on a valid block, in a state the invariant admits. -/
def State.Safe (s : State) : Prop := s.refused = false ∧ s.valid = true ∧ s.Inv

/-- The pin word once the CPU has driven a cycle and step 2 has put a byte on the data bus: lines clear (40_tick_engine.md
R83), the CPU's other pins as they were (30_encoding.md R79). -/
def State.busPins (s : State) (a : Addr) (rw : Rw) (data : Byte) : Pins :=
  { addr := a, data := data, rw := rw, irq := false, nmi := false, other := s.pins.other }

/-- The data bus after a chip's step, by the rule itself (R100). -/
def driven (cs : Bool) (rw : Rw) (out bus : Byte) : Byte := if cs = true ∧ rw = .rd then out else bus

/-- Lines 3 to 6 of R81 as the rule writes them, from the state after step 2: what each chip receives (R92 to R96, R99), what
its outputs do (R94, R97, R98, R100, R102), one round of draws (log 6); the configuration phase over (R144) and no answer
(R163). -/
def State.chipsTicked (u : State) (cs1 cs2 csv : Bool) : State :=
  let p := u.pins
  let q1 := Config.chips.ioc1Tick u.ioc1
    { addr := p.addr, data := p.data, rw := p.rw, cs := cs1, rowPort := 0xFF, others := true }
  let d1 := driven cs1 p.rw q1.2.data p.data
  let q2 := Config.chips.ioc2Tick u.ioc2
    { addr := p.addr, data := d1, rw := p.rw, cs := cs2, rowPort := ~~~ (u.kbd.scanRows u.cols), others := true }
  let d2 := driven cs2 p.rw q2.2.data d1
  let qv := Config.chips.vicTick u.vic { addr := p.addr, data := d2, rw := p.rw, cs := csv } u.vfetch
  let w := if qv.2.sampleReady then u.audioPush qv.2.sample else u
  { w with
    ioc1 := q1.1
    ioc2 := q2.1
    vic := qv.1
    cols := ~~~ q2.2.colOut
    pins := { p with data := driven csv p.rw qv.2.data d2, irq := q2.2.irqOut, nmi := q1.2.irqOut }
    draws := u.draws + 1
    configPhase := false
    result := .none }

/-- The cells a key's action reaches: its own and those of the bound modifiers its mask names (42_keyboard.md R145, R146). -/
def KeyCells (k : Keyboard) (e : KeyEntry) (x : Coord) : Prop :=
  x = e.cell ∨ ∃ j : Fin 2, e.mask.getLsbD j = true ∧ k.modCell[j] = some x

/-- A video fetch by `i` answers with `lo` below, the color nibble in bits 11:8 and a free nibble above, and changes nothing
but the model's own answer and draw counter (20_memory.md R52; logs 4, 6). -/
def FetchAnswers (s : State) (va : VAddr) (i : Instr) (lo : Byte) : Prop :=
  ∃ w : BitVec 16, exec i s = .next { s with result := .word w, draws := s.draws + 1 } ∧
    w.extractLsb' 0 8 = lo ∧ w.extractLsb' 8 4 = (s.bankByte .color (va.toNat % 0x400)).extractLsb' 0 4 ∧
    w.extractLsb' 12 4 = (Config.draw s.draws 0).extractLsb' 0 4

/-- The word `{RD, a}` decodes to `i`, which puts `v` on the data bus and changes no memory. -/
def ReadsAs (s : State) (a : Addr) (i : Instr) (v : Byte) : Prop :=
  decode (.bus (1#1 ++ a) 0) = .ok i ∧ ∃ t, exec i s = .next t ∧ t.pins.data = v ∧ t.mem = s.mem

/-- The word `{WR, a}` with data `d` decodes to `i`, which writes `d` in one cell of a bank and in no other. -/
def WritesCell (s : State) (a : Addr) (d : Byte) (i : Instr) (b : Bank) (k : Nat) : Prop :=
  decode (.bus (0#1 ++ a) d) = .ok i ∧ ∃ t, exec i s = .next t ∧ t.pins.data = d ∧ t.bankByte b k = d ∧
    ∀ (c : Bank) (j : Nat), j < 0x2000 → ¬ (c = b ∧ j = k) → t.bankByte c j = s.bankByte c j

/-- The word `{WR, a}` with data `d` decodes to `i`, which writes nothing. -/
def WritesNothing (s : State) (a : Addr) (d : Byte) (i : Instr) : Prop :=
  decode (.bus (0#1 ++ a) d) = .ok i ∧ ∃ t, exec i s = .next t ∧ t.pins.data = d ∧ t.mem = s.mem

/-- The address lies in the `len` addresses from `base` (20_memory.md R38, R39). -/
def inRange (base : Addr) (len : Nat) (a : Addr) : Prop := base.toNat ≤ a.toNat ∧ a.toNat < base.toNat + len

end Sys2Proof.Machine

namespace Sys2Proof

/-- The twelve memory read classes at an address (R105 to R131, odd). -/
def memReadClasses (a : Addr) : List Instr :=
  [.rdZp a, .rdRsv0A a, .rdRsv0B a, .rdRam a, .rdRsv1A a, .rdRsv1B a, .rdChar a, .rdColor a, .rdRsv2 a, .rdRsv3 a, .rdBasic a,
   .rdKernal a]

/-- The twelve memory write classes at an address (R106 to R132, even). -/
def memWriteClasses (a : Addr) (d : Byte) : List Instr :=
  [.wrZp a d, .wrRsv0A a d, .wrRsv0B a d, .wrRam a d, .wrRsv1A a d, .wrRsv1B a d, .wrChar a d, .wrColor a d, .wrRsv2 a d,
   .wrRsv3 a d, .wrBasic a d, .wrKernal a d]

/-- The four I/O read classes with the selects of IOC1 and IOC2 (R115, R117, R119, R121). -/
def ioReadClasses (a : Addr) : List (Instr × Bool × Bool) :=
  [(.ioRdNone a, false, false), (.ioRdC1 a, true, false), (.ioRdC2 a, false, true), (.ioRdC12 a, true, true)]

/-- The four I/O write classes with the selects of IOC1 and IOC2 (R116, R118, R120, R122). -/
def ioWriteClasses (a : Addr) (d : Byte) : List (Instr × Bool × Bool) :=
  [(.ioWrNone a d, false, false), (.ioWrC1 a d, true, false), (.ioWrC2 a d, false, true), (.ioWrC12 a d, true, true)]

/-- The 32 bus-cycle classes at an address. -/
def busClasses (a : Addr) (d : Byte) : List Instr :=
  memReadClasses a ++ memWriteClasses a d ++ (ioReadClasses a ++ ioWriteClasses a d).map Prod.fst

/-- The six video-fetch classes at a video address (R133 to R137). -/
def fetchClasses (va : VAddr) : List Instr := [.vfChar va, .vfGap0 va, .vfZp va, .vfGap1A va, .vfGap1B va, .vfRam va]

/-- A row of R75: mask, match and the operation at an address with a data byte. -/
structure BusRow where
  mask : BitVec 17
  pat  : BitVec 17
  make : Addr → Byte → Instr

/-- The word matches the row. -/
def BusRow.matches (r : BusRow) (w : BitVec 17) : Bool := w &&& r.mask == r.pat

/-- The 32 rows of R75. -/
def busRows : List BusRow :=
  [⟨0x1FC00, 0x10000, fun a _ => .rdZp a⟩,
   ⟨0x1FC00, 0x00000, fun a d => .wrZp a d⟩,
   ⟨0x1FC00, 0x10400, fun a _ => .rdRsv0A a⟩,
   ⟨0x1FC00, 0x00400, fun a d => .wrRsv0A a d⟩,
   ⟨0x1F800, 0x10800, fun a _ => .rdRsv0B a⟩,
   ⟨0x1F800, 0x00800, fun a d => .wrRsv0B a d⟩,
   ⟨0x1F000, 0x11000, fun a _ => .rdRam a⟩,
   ⟨0x1F000, 0x01000, fun a d => .wrRam a d⟩,
   ⟨0x1E000, 0x12000, fun a _ => .rdRsv1A a⟩,
   ⟨0x1E000, 0x02000, fun a d => .wrRsv1A a d⟩,
   ⟨0x1C000, 0x14000, fun a _ => .rdRsv1B a⟩,
   ⟨0x1C000, 0x04000, fun a d => .wrRsv1B a d⟩,
   ⟨0x1F000, 0x18000, fun a _ => .rdChar a⟩,
   ⟨0x1F000, 0x08000, fun a d => .wrChar a d⟩,
   ⟨0x1FC30, 0x19000, fun a _ => .ioRdNone a⟩,
   ⟨0x1FC30, 0x09000, fun a d => .ioWrNone a d⟩,
   ⟨0x1FC30, 0x19010, fun a _ => .ioRdC1 a⟩,
   ⟨0x1FC30, 0x09010, fun a d => .ioWrC1 a d⟩,
   ⟨0x1FC30, 0x19020, fun a _ => .ioRdC2 a⟩,
   ⟨0x1FC30, 0x09020, fun a d => .ioWrC2 a d⟩,
   ⟨0x1FC30, 0x19030, fun a _ => .ioRdC12 a⟩,
   ⟨0x1FC30, 0x09030, fun a d => .ioWrC12 a d⟩,
   ⟨0x1FC00, 0x19400, fun a _ => .rdColor a⟩,
   ⟨0x1FC00, 0x09400, fun a d => .wrColor a d⟩,
   ⟨0x1F800, 0x19800, fun a _ => .rdRsv2 a⟩,
   ⟨0x1F800, 0x09800, fun a d => .wrRsv2 a d⟩,
   ⟨0x1E000, 0x1A000, fun a _ => .rdRsv3 a⟩,
   ⟨0x1E000, 0x0A000, fun a d => .wrRsv3 a d⟩,
   ⟨0x1E000, 0x1C000, fun a _ => .rdBasic a⟩,
   ⟨0x1E000, 0x0C000, fun a d => .wrBasic a d⟩,
   ⟨0x1E000, 0x1E000, fun a _ => .rdKernal a⟩,
   ⟨0x1E000, 0x0E000, fun a d => .wrKernal a d⟩]

/-- A row of R76. -/
structure VfRow where
  mask : BitVec 14
  pat  : BitVec 14
  make : VAddr → Instr

/-- The video address matches the row. -/
def VfRow.matches (r : VfRow) (va : VAddr) : Bool := va &&& r.mask == r.pat

/-- The six rows of R76. -/
def vfRows : List VfRow :=
  [⟨0x3000, 0x0000, fun va => .vfChar va⟩,
   ⟨0x3000, 0x1000, fun va => .vfGap0 va⟩,
   ⟨0x3C00, 0x2000, fun va => .vfZp va⟩,
   ⟨0x3C00, 0x2400, fun va => .vfGap1A va⟩,
   ⟨0x3800, 0x2800, fun va => .vfGap1B va⟩,
   ⟨0x3000, 0x3000, fun va => .vfRam va⟩]

/-- The masks and matches of the 16 HOST operation codes (R72, R73): every bit that a row does not name is in its mask. -/
def hostRows : List (BitVec 32 × BitVec 32) :=
  [(0xFFFFFFFF, 0x00000000), (0xFFFFFFFE, 0x10000000), (0xFFFFFFFF, 0x20000000), (0xFFFFFF00, 0x30000000), (0xFFFFFF00, 0x40000000), (0xFFFFFFFF, 0x50000000), (0xFFFFFF00, 0x60000000), (0xFFFFFFFF, 0x70000000),
   (0xFFFFFFFF, 0x80000000), (0xFFFFFF80, 0x90000000), (0xFFFF0000, 0xA0000000), (0xFFFFFF80, 0xB0000000), (0xFFFE0000, 0xC0000000), (0xFE000000, 0xD0000000), (0xFFFFC000, 0xE0000000), (0xFFFFFFFF, 0xF0000000)]

/-- The row of spec/opcode_table.json an operation stands for, as the mask and match of its word. -/
def Instr.row : Instr → Nat × Nat
  | .rdZp _ => (0x1FC00, 0x10000)
  | .wrZp _ _ => (0x1FC00, 0x00000)
  | .rdRsv0A _ => (0x1FC00, 0x10400)
  | .wrRsv0A _ _ => (0x1FC00, 0x00400)
  | .rdRsv0B _ => (0x1F800, 0x10800)
  | .wrRsv0B _ _ => (0x1F800, 0x00800)
  | .rdRam _ => (0x1F000, 0x11000)
  | .wrRam _ _ => (0x1F000, 0x01000)
  | .rdRsv1A _ => (0x1E000, 0x12000)
  | .wrRsv1A _ _ => (0x1E000, 0x02000)
  | .rdRsv1B _ => (0x1C000, 0x14000)
  | .wrRsv1B _ _ => (0x1C000, 0x04000)
  | .rdChar _ => (0x1F000, 0x18000)
  | .wrChar _ _ => (0x1F000, 0x08000)
  | .ioRdNone _ => (0x1FC30, 0x19000)
  | .ioWrNone _ _ => (0x1FC30, 0x09000)
  | .ioRdC1 _ => (0x1FC30, 0x19010)
  | .ioWrC1 _ _ => (0x1FC30, 0x09010)
  | .ioRdC2 _ => (0x1FC30, 0x19020)
  | .ioWrC2 _ _ => (0x1FC30, 0x09020)
  | .ioRdC12 _ => (0x1FC30, 0x19030)
  | .ioWrC12 _ _ => (0x1FC30, 0x09030)
  | .rdColor _ => (0x1FC00, 0x19400)
  | .wrColor _ _ => (0x1FC00, 0x09400)
  | .rdRsv2 _ => (0x1F800, 0x19800)
  | .wrRsv2 _ _ => (0x1F800, 0x09800)
  | .rdRsv3 _ => (0x1E000, 0x1A000)
  | .wrRsv3 _ _ => (0x1E000, 0x0A000)
  | .rdBasic _ => (0x1E000, 0x1C000)
  | .wrBasic _ _ => (0x1E000, 0x0C000)
  | .rdKernal _ => (0x1E000, 0x1E000)
  | .wrKernal _ _ => (0x1E000, 0x0E000)
  | .vfChar _ => (0x3000, 0x0000)
  | .vfGap0 _ => (0x3000, 0x1000)
  | .vfZp _ => (0x3C00, 0x2000)
  | .vfGap1A _ => (0x3C00, 0x2400)
  | .vfGap1B _ => (0x3800, 0x2800)
  | .vfRam _ => (0x3000, 0x3000)
  | .tick => (0xFFFFFFFF, 0x00000000)
  | .exec _ _ => (0xFFFFFFFE, 0x10000000)
  | .reset => (0xFFFFFFFF, 0x20000000)
  | .keyDown _ => (0xFFFFFF00, 0x30000000)
  | .keyUp _ => (0xFFFFFF00, 0x40000000)
  | .kbdAdvance _ => (0xFFFFFFFF, 0x50000000)
  | .scan _ => (0xFFFFFF00, 0x60000000)
  | .quickload _ => (0xFFFFFFFF, 0x70000000)
  | .cartInsert _ => (0xFFFFFFFF, 0x80000000)
  | .mapRegion _ _ _ _ _ _ _ => (0xFFFFFF80, 0x90000000)
  | .keyRegister _ _ _ _ => (0xFFFF0000, 0xA0000000)
  | .modRegister _ _ _ => (0xFFFFFF80, 0xB0000000)
  | .memRead _ _ => (0xFFFE0000, 0xC0000000)
  | .memWrite _ _ _ => (0xFE000000, 0xD0000000)
  | .vfetch _ => (0xFFFFC000, 0xE0000000)
  | .discard => (0xFFFFFFFF, 0xF0000000)

/-- The frame's word as a number. -/
def Frame.word : Frame → Nat
  | .bus w _ => w.toNat
  | .vf va => va.toNat
  | .host w _ => w.toNat

/-- Two frames arrive on the same interface with the same word (R65); operands beside the word are not compared. -/
def Frame.sameWord : Frame → Frame → Bool
  | .bus w _, .bus w' _ => w == w'
  | .vf va, .vf va' => va == va'
  | .host w _, .host w' _ => w == w'
  | .bus _ _, .vf _ => false
  | .bus _ _, .host _ _ => false
  | .vf _, .bus _ _ => false
  | .vf _, .host _ _ => false
  | .host _ _, .bus _ _ => false
  | .host _ _, .vf _ => false

/-- A video fetch on its own (the VF format): not a host operation (R66). -/
def Instr.isFetch : Instr → Bool
  | .rdZp _ => false
  | .wrZp _ _ => false
  | .rdRsv0A _ => false
  | .wrRsv0A _ _ => false
  | .rdRsv0B _ => false
  | .wrRsv0B _ _ => false
  | .rdRam _ => false
  | .wrRam _ _ => false
  | .rdRsv1A _ => false
  | .wrRsv1A _ _ => false
  | .rdRsv1B _ => false
  | .wrRsv1B _ _ => false
  | .rdChar _ => false
  | .wrChar _ _ => false
  | .ioRdNone _ => false
  | .ioWrNone _ _ => false
  | .ioRdC1 _ => false
  | .ioWrC1 _ _ => false
  | .ioRdC2 _ => false
  | .ioWrC2 _ _ => false
  | .ioRdC12 _ => false
  | .ioWrC12 _ _ => false
  | .rdColor _ => false
  | .wrColor _ _ => false
  | .rdRsv2 _ => false
  | .wrRsv2 _ _ => false
  | .rdRsv3 _ => false
  | .wrRsv3 _ _ => false
  | .rdBasic _ => false
  | .wrBasic _ _ => false
  | .rdKernal _ => false
  | .wrKernal _ _ => false
  | .vfChar _ => true
  | .vfGap0 _ => true
  | .vfZp _ => true
  | .vfGap1A _ => true
  | .vfGap1B _ => true
  | .vfRam _ => true
  | .tick => false
  | .exec _ _ => false
  | .reset => false
  | .keyDown _ => false
  | .keyUp _ => false
  | .kbdAdvance _ => false
  | .scan _ => false
  | .quickload _ => false
  | .cartInsert _ => false
  | .mapRegion _ _ _ _ _ _ _ => false
  | .keyRegister _ _ _ _ => false
  | .modRegister _ _ _ => false
  | .memRead _ _ => false
  | .memWrite _ _ _ => false
  | .vfetch _ => false
  | .discard => false

end Sys2Proof
end

