-- ==== Sys2Proof/Laws/Decode.lean ====
section
/-! SUPPORT. Arithmetic of the encodings: what a mask of high bits keeps, the number a word assembled from fields is, and the
address ranges behind the I/O window's bit pattern. -/

namespace Sys2Proof

/-- A mask of the bits from `lo` up to `h` cuts a number of `h` bits down to its multiple of `2 ^ lo`. -/
theorem land_high {n h lo : Nat} (hn : n < 2 ^ h) (hlo : lo ≤ h) : n &&& (2 ^ h - 2 ^ lo) = n / 2 ^ lo * 2 ^ lo := by
  have hm : 2 ^ h - 2 ^ lo = (2 ^ (h - lo) - 1) * 2 ^ lo := by
    rw [Nat.sub_mul, ← Nat.pow_add, Nat.sub_add_cancel hlo, Nat.one_mul]
  rw [hm]
  apply Nat.eq_of_testBit_eq
  intro i
  rw [Nat.testBit_and, Nat.testBit_mul_two_pow, Nat.testBit_mul_two_pow, Nat.testBit_two_pow_sub_one, Nat.testBit_div_two_pow]
  by_cases hi : lo ≤ i
  · have e : i - lo + lo = i := Nat.sub_add_cancel hi
    simp only [hi, decide_true, Bool.true_and, e]
    by_cases hb : n.testBit i
    · have : i < h := by
        by_contra hc
        rw [Nat.testBit_lt_two_pow (Nat.lt_of_lt_of_le hn (Nat.pow_le_pow_right (by decide) (by omega)))] at hb
        exact Bool.false_ne_true hb
      simp [hb]; omega
    · simp [hb]
  · simp [hi]

/-- The number that two fields set side by side are. -/
theorem toNat_append_add {m n : Nat} (x : BitVec m) (y : BitVec n) : (x ++ y).toNat = x.toNat * 2 ^ n + y.toNat := by
  rw [BitVec.toNat_append, Nat.shiftLeft_eq, Nat.mul_comm, Nat.two_pow_add_eq_or_of_lt y.isLt]

/-- A BUS word by its number (R69). -/
theorem rdWord_word (a : Addr) : (rdWord a).word = 0x10000 + a.toNat := by
  show (1#1 ++ a).toNat = _
  rw [toNat_append_add]; rfl

theorem wrWord_word (a : Addr) (d : Byte) : (wrWord a d).word = a.toNat := by
  show (0#1 ++ a).toNat = _
  rw [toNat_append_add]; simp

/-- A HOST word by its number (R72). -/
theorem hostWord_word (op : BitVec 4) (f : BitVec 28) (ops : HostOperands) :
    (hostWord op f ops).word = op.toNat * 2 ^ 28 + f.toNat := by
  show (op ++ f).toNat = _
  rw [toNat_append_add]

theorem addrIn_iff (a : Addr) (lo hi : Nat) : addrIn a lo hi = true ↔ lo ≤ a.toNat ∧ a.toNat ≤ hi := by simp [addrIn]

theorem vaddrIn_iff (va : VAddr) (lo hi : Nat) : vaddrIn va lo hi = true ↔ lo ≤ va.toNat ∧ va.toNat ≤ hi := by simp [vaddrIn]

/-- The I/O window as a range (R85). -/
theorem ioWindow_iff (a : Addr) : ioWindow a = true ↔ 0x9000 ≤ a.toNat ∧ a.toNat ≤ 0x93FF := by
  have : (a.extractLsb' 10 6).toNat = a.toNat / 0x400 := by
    rw [BitVec.extractLsb'_toNat, Nat.shiftRight_eq_div_pow]; omega
  rw [ioWindow, beq_iff_eq, ← BitVec.toNat_inj, this]
  simp only [BitVec.toNat_ofNat]
  omega

theorem ioRow_iff (a : Addr) (a5 a4 : Bool) :
    ioRow a a5 a4 = true ↔ ioWindow a = true ∧ a.getLsbD 5 = a5 ∧ a.getLsbD 4 = a4 := by
  rw [ioWindow_iff, ioRow, Bool.and_eq_true, Bool.and_eq_true, addrIn_iff, beq_iff_eq, beq_iff_eq, and_assoc]

/-- A read word under the mask of a memory row. -/
theorem rdWord_mask {a : Addr} {lo hi m p : Nat} (k : Nat) (hm : 2 ^ 17 - 2 ^ k = m) (hk : k ≤ 16)
    (hp : ∀ n, lo ≤ n → n ≤ hi → (0x10000 + n) / 2 ^ k * 2 ^ k = p) (h : addrIn a lo hi = true) :
    (rdWord a).word &&& m = p := by
  rw [addrIn_iff] at h
  rw [rdWord_word, ← hm, land_high (by have := a.isLt; omega) (by omega), hp _ h.1 h.2]

/-- A write word under the mask of a memory row. -/
theorem wrWord_mask {a : Addr} {lo hi m p : Nat} (k : Nat) (d : Byte) (hm : 2 ^ 17 - 2 ^ k = m) (hk : k ≤ 16)
    (hp : ∀ n, lo ≤ n → n ≤ hi → n / 2 ^ k * 2 ^ k = p) (h : addrIn a lo hi = true) :
    (wrWord a d).word &&& m = p := by
  rw [addrIn_iff] at h
  rw [wrWord_word, ← hm, land_high (by have := a.isLt; omega) (by omega), hp _ h.1 h.2]

/-- A VF word under the mask of its row. -/
theorem vfWord_mask {va : VAddr} {lo hi m p : Nat} (k : Nat) (hm : 2 ^ 14 - 2 ^ k = m) (hk : k ≤ 14)
    (hp : ∀ n, lo ≤ n → n ≤ hi → n / 2 ^ k * 2 ^ k = p) (h : vaddrIn va lo hi = true) : va.toNat &&& m = p := by
  rw [vaddrIn_iff] at h
  rw [← hm, land_high va.isLt hk, hp _ h.1 h.2]

/-- A HOST word under the mask of its row: everything above its named fields. -/
theorem hostWord_mask {op : BitVec 4} {f : BitVec 28} {ops : HostOperands} {m p : Nat} (k : Nat) (hm : 2 ^ 32 - 2 ^ k = m)
    (hk : k ≤ 28) (hf : f.toNat < 2 ^ k) (hp : op.toNat * 2 ^ 28 = p) : (hostWord op f ops).word &&& m = p := by
  have hlt : op.toNat * 2 ^ 28 + f.toNat < 2 ^ 32 := by have := op.isLt; have := f.isLt; omega
  rw [hostWord_word, ← hm, land_high hlt (by omega), ← hp]
  have e : 2 ^ 28 = 2 ^ (28 - k) * 2 ^ k := by rw [← Nat.pow_add, Nat.sub_add_cancel hk]
  rw [e, ← Nat.mul_assoc, Nat.add_comm, Nat.add_mul_div_right _ _ (Nat.two_pow_pos k), Nat.div_eq_of_lt hf, Nat.zero_add]

/-- The mask of the I/O rows keeps the window's bits and bits 5 and 4. -/
theorem land_io (n : Nat) (h : n < 2 ^ 17) : n &&& 0x1FC30 = n / 0x400 * 0x400 + n / 0x10 % 4 * 0x10 := by
  have e : n = (n / 0x400) <<< 10 ||| n % 0x400 := by
    rw [← Nat.shiftLeft_add_eq_or_of_lt (by omega), Nat.shiftLeft_eq]; omega
  have hi : (n / 0x400) <<< 10 &&& 0x1FC30 = n / 0x400 * 0x400 := by
    have : n / 0x400 < 128 := by omega
    generalize n / 0x400 = k at this
    revert k; decide
  have lo : n % 0x400 &&& 0x1FC30 = n / 0x10 % 4 * 0x10 := by
    have h6 : n % 0x400 &&& 0x1FC30 = n % 0x40 &&& (2 ^ 6 - 2 ^ 4) := by
      apply Nat.eq_of_testBit_eq
      intro i
      rw [Nat.testBit_and, Nat.testBit_and, show 0x400 = 2 ^ 10 from rfl, show 0x40 = 2 ^ 6 from rfl, Nat.testBit_mod_two_pow,
        Nat.testBit_mod_two_pow]
      by_cases hi : i < 10
      · interval_cases i <;> simp [Nat.testBit]
      · have : ¬ i < 6 := by omega
        simp [hi, this]
    have h7 := land_high (n := n % 0x40) (h := 6) (lo := 4) (Nat.mod_lt _ (by decide)) (by decide)
    rw [h6, h7]; omega
  conv_lhs => rw [e]
  rw [Nat.and_or_distrib_right, hi, lo, show 0x400 = 2 ^ 10 from rfl, ← Nat.shiftLeft_eq,
    Nat.shiftLeft_add_eq_or_of_lt (by omega)]

/-- Bit `i` as the parity of a quotient. -/
theorem getLsbD_div {n : Nat} (x : BitVec n) (i : Nat) : x.getLsbD i = decide (x.toNat / 2 ^ i % 2 = 1) := by
  rw [BitVec.getLsbD, Nat.testBit_eq_decide_div_mod_eq]

theorem rdWord_io {a : Addr} {a5 a4 : Bool} {p : Nat} (hp : 0x19000 + (if a5 then 0x20 else 0) + (if a4 then 0x10 else 0) = p)
    (h : ioRow a a5 a4 = true) : (rdWord a).word &&& 0x1FC30 = p := by
  obtain ⟨hw, h5, h4⟩ := (ioRow_iff a a5 a4).mp h
  rw [ioWindow_iff] at hw
  rw [getLsbD_div] at h5 h4
  rw [rdWord_word, land_io _ (by omega), ← hp, ← h5, ← h4]
  simp only [decide_eq_true_eq]
  split <;> split <;> omega

theorem wrWord_io {a : Addr} {a5 a4 : Bool} {p : Nat} (d : Byte)
    (hp : 0x9000 + (if a5 then 0x20 else 0) + (if a4 then 0x10 else 0) = p)
    (h : ioRow a a5 a4 = true) : (wrWord a d).word &&& 0x1FC30 = p := by
  obtain ⟨hw, h5, h4⟩ := (ioRow_iff a a5 a4).mp h
  rw [ioWindow_iff] at hw
  rw [getLsbD_div] at h5 h4
  rw [wrWord_word, land_io _ (by omega), ← hp, ← h5, ← h4]
  simp only [decide_eq_true_eq]
  split <;> split <;> omega

end Sys2Proof
end

