-- ==== Sys2Proof/Laws/State.lean ====
section
/-! SUPPORT. What each named update of the state does to each field, and what bounding does to the parameters: one lemma per
field and update. -/

namespace Sys2Proof

@[simp] theorem Params.bounded_vicSel (p : Params) : p.bounded.vicSel = p.vicSel := rfl
@[simp] theorem Params.bounded_expPresent (p : Params) : p.bounded.expPresent = p.expPresent := rfl
@[simp] theorem Params.bounded_kbdHoldUs (p : Params) : p.bounded.kbdHoldUs = p.kbdHoldUs := rfl
@[simp] theorem Params.bounded_sampleRate (p : Params) : p.bounded.sampleRate = p.sampleRate := rfl
@[simp] theorem Params.bounded_volume (p : Params) : p.bounded.volume = p.volume := rfl
@[simp] theorem Params.bounded_debugHook (p : Params) : p.bounded.debugHook = p.debugHook := rfl
@[simp] theorem Params.bounded_pinReset (p : Params) : p.bounded.pinReset = p.pinReset := rfl

/-- The bounded capacity is one that construction admits (D30). -/
theorem Params.bounded_admitted (p : Params) : p.bounded.Admitted := by
  simp only [Params.Admitted, Params.bounded]
  omega

/-- Admitted parameters are bounded already, so every admitted value is one of `Config.params`' possible values. -/
theorem Params.bounded_of_admitted {p : Params} (h : p.Admitted) : p.bounded = p := by
  have hc : max 1 (min p.audioCap p.audioMax) = p.audioCap := by omega
  have hm : max 1 p.audioMax = p.audioMax := by omega
  unfold Params.bounded
  rw [hc, hm]

end Sys2Proof

namespace Sys2Proof.Machine

@[simp] theorem State.refuse_cpu (s : State) (why : Reason) : (s.refuse why).cpu = s.cpu := rfl
@[simp] theorem State.refuse_ioc1 (s : State) (why : Reason) : (s.refuse why).ioc1 = s.ioc1 := rfl
@[simp] theorem State.refuse_ioc2 (s : State) (why : Reason) : (s.refuse why).ioc2 = s.ioc2 := rfl
@[simp] theorem State.refuse_vic (s : State) (why : Reason) : (s.refuse why).vic = s.vic := rfl
@[simp] theorem State.refuse_pins (s : State) (why : Reason) : (s.refuse why).pins = s.pins := rfl
@[simp] theorem State.refuse_mem (s : State) (why : Reason) : (s.refuse why).mem = s.mem := rfl
@[simp] theorem State.refuse_cartLen (s : State) (why : Reason) : (s.refuse why).cartLen = s.cartLen := rfl
@[simp] theorem State.refuse_regionsCpu (s : State) (why : Reason) : (s.refuse why).regionsCpu = s.regionsCpu := rfl
@[simp] theorem State.refuse_regionsVid (s : State) (why : Reason) : (s.refuse why).regionsVid = s.regionsVid := rfl
@[simp] theorem State.refuse_kbd (s : State) (why : Reason) : (s.refuse why).kbd = s.kbd := rfl
@[simp] theorem State.refuse_cols (s : State) (why : Reason) : (s.refuse why).cols = s.cols := rfl
@[simp] theorem State.refuse_audio (s : State) (why : Reason) : (s.refuse why).audio = s.audio := rfl
@[simp] theorem State.refuse_valid (s : State) (why : Reason) : (s.refuse why).valid = s.valid := rfl
@[simp] theorem State.refuse_refused (s : State) (why : Reason) : (s.refuse why).refused = true := rfl
@[simp] theorem State.refuse_configPhase (s : State) (why : Reason) : (s.refuse why).configPhase = s.configPhase := rfl
@[simp] theorem State.refuse_params (s : State) (why : Reason) : (s.refuse why).params = s.params := rfl
@[simp] theorem State.refuse_inbox (s : State) (why : Reason) : (s.refuse why).inbox = s.inbox := rfl
@[simp] theorem State.refuse_result (s : State) (why : Reason) : (s.refuse why).result = .refused why := rfl
@[simp] theorem State.refuse_trace (s : State) (why : Reason) : (s.refuse why).trace = s.trace := rfl
@[simp] theorem State.refuse_draws (s : State) (why : Reason) : (s.refuse why).draws = s.draws := rfl

@[simp] theorem State.answer_cpu (s : State) (r : Result) : (s.answer r).cpu = s.cpu := rfl
@[simp] theorem State.answer_ioc1 (s : State) (r : Result) : (s.answer r).ioc1 = s.ioc1 := rfl
@[simp] theorem State.answer_ioc2 (s : State) (r : Result) : (s.answer r).ioc2 = s.ioc2 := rfl
@[simp] theorem State.answer_vic (s : State) (r : Result) : (s.answer r).vic = s.vic := rfl
@[simp] theorem State.answer_pins (s : State) (r : Result) : (s.answer r).pins = s.pins := rfl
@[simp] theorem State.answer_mem (s : State) (r : Result) : (s.answer r).mem = s.mem := rfl
@[simp] theorem State.answer_cartLen (s : State) (r : Result) : (s.answer r).cartLen = s.cartLen := rfl
@[simp] theorem State.answer_regionsCpu (s : State) (r : Result) : (s.answer r).regionsCpu = s.regionsCpu := rfl
@[simp] theorem State.answer_regionsVid (s : State) (r : Result) : (s.answer r).regionsVid = s.regionsVid := rfl
@[simp] theorem State.answer_kbd (s : State) (r : Result) : (s.answer r).kbd = s.kbd := rfl
@[simp] theorem State.answer_cols (s : State) (r : Result) : (s.answer r).cols = s.cols := rfl
@[simp] theorem State.answer_audio (s : State) (r : Result) : (s.answer r).audio = s.audio := rfl
@[simp] theorem State.answer_valid (s : State) (r : Result) : (s.answer r).valid = s.valid := rfl
@[simp] theorem State.answer_refused (s : State) (r : Result) : (s.answer r).refused = s.refused := rfl
@[simp] theorem State.answer_configPhase (s : State) (r : Result) : (s.answer r).configPhase = s.configPhase := rfl
@[simp] theorem State.answer_params (s : State) (r : Result) : (s.answer r).params = s.params := rfl
@[simp] theorem State.answer_inbox (s : State) (r : Result) : (s.answer r).inbox = s.inbox := rfl
@[simp] theorem State.answer_result (s : State) (r : Result) : (s.answer r).result = r := rfl
@[simp] theorem State.answer_trace (s : State) (r : Result) : (s.answer r).trace = s.trace := rfl
@[simp] theorem State.answer_draws (s : State) (r : Result) : (s.answer r).draws = s.draws := rfl

@[simp] theorem State.emit_cpu (s : State) (e : Event) : (s.emit e).cpu = s.cpu := rfl
@[simp] theorem State.emit_ioc1 (s : State) (e : Event) : (s.emit e).ioc1 = s.ioc1 := rfl
@[simp] theorem State.emit_ioc2 (s : State) (e : Event) : (s.emit e).ioc2 = s.ioc2 := rfl
@[simp] theorem State.emit_vic (s : State) (e : Event) : (s.emit e).vic = s.vic := rfl
@[simp] theorem State.emit_pins (s : State) (e : Event) : (s.emit e).pins = s.pins := rfl
@[simp] theorem State.emit_mem (s : State) (e : Event) : (s.emit e).mem = s.mem := rfl
@[simp] theorem State.emit_cartLen (s : State) (e : Event) : (s.emit e).cartLen = s.cartLen := rfl
@[simp] theorem State.emit_regionsCpu (s : State) (e : Event) : (s.emit e).regionsCpu = s.regionsCpu := rfl
@[simp] theorem State.emit_regionsVid (s : State) (e : Event) : (s.emit e).regionsVid = s.regionsVid := rfl
@[simp] theorem State.emit_kbd (s : State) (e : Event) : (s.emit e).kbd = s.kbd := rfl
@[simp] theorem State.emit_cols (s : State) (e : Event) : (s.emit e).cols = s.cols := rfl
@[simp] theorem State.emit_audio (s : State) (e : Event) : (s.emit e).audio = s.audio := rfl
@[simp] theorem State.emit_valid (s : State) (e : Event) : (s.emit e).valid = s.valid := rfl
@[simp] theorem State.emit_refused (s : State) (e : Event) : (s.emit e).refused = s.refused := rfl
@[simp] theorem State.emit_configPhase (s : State) (e : Event) : (s.emit e).configPhase = s.configPhase := rfl
@[simp] theorem State.emit_params (s : State) (e : Event) : (s.emit e).params = s.params := rfl
@[simp] theorem State.emit_inbox (s : State) (e : Event) : (s.emit e).inbox = s.inbox := rfl
@[simp] theorem State.emit_result (s : State) (e : Event) : (s.emit e).result = s.result := rfl
@[simp] theorem State.emit_trace (s : State) (e : Event) : (s.emit e).trace = s.trace ++ [e] := rfl
@[simp] theorem State.emit_draws (s : State) (e : Event) : (s.emit e).draws = s.draws := rfl

@[simp] theorem State.drawn_cpu (s : State) : (s.drawn).cpu = s.cpu := rfl
@[simp] theorem State.drawn_ioc1 (s : State) : (s.drawn).ioc1 = s.ioc1 := rfl
@[simp] theorem State.drawn_ioc2 (s : State) : (s.drawn).ioc2 = s.ioc2 := rfl
@[simp] theorem State.drawn_vic (s : State) : (s.drawn).vic = s.vic := rfl
@[simp] theorem State.drawn_pins (s : State) : (s.drawn).pins = s.pins := rfl
@[simp] theorem State.drawn_mem (s : State) : (s.drawn).mem = s.mem := rfl
@[simp] theorem State.drawn_cartLen (s : State) : (s.drawn).cartLen = s.cartLen := rfl
@[simp] theorem State.drawn_regionsCpu (s : State) : (s.drawn).regionsCpu = s.regionsCpu := rfl
@[simp] theorem State.drawn_regionsVid (s : State) : (s.drawn).regionsVid = s.regionsVid := rfl
@[simp] theorem State.drawn_kbd (s : State) : (s.drawn).kbd = s.kbd := rfl
@[simp] theorem State.drawn_cols (s : State) : (s.drawn).cols = s.cols := rfl
@[simp] theorem State.drawn_audio (s : State) : (s.drawn).audio = s.audio := rfl
@[simp] theorem State.drawn_valid (s : State) : (s.drawn).valid = s.valid := rfl
@[simp] theorem State.drawn_refused (s : State) : (s.drawn).refused = s.refused := rfl
@[simp] theorem State.drawn_configPhase (s : State) : (s.drawn).configPhase = s.configPhase := rfl
@[simp] theorem State.drawn_params (s : State) : (s.drawn).params = s.params := rfl
@[simp] theorem State.drawn_inbox (s : State) : (s.drawn).inbox = s.inbox := rfl
@[simp] theorem State.drawn_result (s : State) : (s.drawn).result = s.result := rfl
@[simp] theorem State.drawn_trace (s : State) : (s.drawn).trace = s.trace := rfl
@[simp] theorem State.drawn_draws (s : State) : (s.drawn).draws = s.draws + 1 := rfl

@[simp] theorem State.closeConfig_cpu (s : State) : (s.closeConfig).cpu = s.cpu := rfl
@[simp] theorem State.closeConfig_ioc1 (s : State) : (s.closeConfig).ioc1 = s.ioc1 := rfl
@[simp] theorem State.closeConfig_ioc2 (s : State) : (s.closeConfig).ioc2 = s.ioc2 := rfl
@[simp] theorem State.closeConfig_vic (s : State) : (s.closeConfig).vic = s.vic := rfl
@[simp] theorem State.closeConfig_pins (s : State) : (s.closeConfig).pins = s.pins := rfl
@[simp] theorem State.closeConfig_mem (s : State) : (s.closeConfig).mem = s.mem := rfl
@[simp] theorem State.closeConfig_cartLen (s : State) : (s.closeConfig).cartLen = s.cartLen := rfl
@[simp] theorem State.closeConfig_regionsCpu (s : State) : (s.closeConfig).regionsCpu = s.regionsCpu := rfl
@[simp] theorem State.closeConfig_regionsVid (s : State) : (s.closeConfig).regionsVid = s.regionsVid := rfl
@[simp] theorem State.closeConfig_kbd (s : State) : (s.closeConfig).kbd = s.kbd := rfl
@[simp] theorem State.closeConfig_cols (s : State) : (s.closeConfig).cols = s.cols := rfl
@[simp] theorem State.closeConfig_audio (s : State) : (s.closeConfig).audio = s.audio := rfl
@[simp] theorem State.closeConfig_valid (s : State) : (s.closeConfig).valid = s.valid := rfl
@[simp] theorem State.closeConfig_refused (s : State) : (s.closeConfig).refused = s.refused := rfl
@[simp] theorem State.closeConfig_configPhase (s : State) : (s.closeConfig).configPhase = false := rfl
@[simp] theorem State.closeConfig_params (s : State) : (s.closeConfig).params = s.params := rfl
@[simp] theorem State.closeConfig_inbox (s : State) : (s.closeConfig).inbox = s.inbox := rfl
@[simp] theorem State.closeConfig_result (s : State) : (s.closeConfig).result = s.result := rfl
@[simp] theorem State.closeConfig_trace (s : State) : (s.closeConfig).trace = s.trace := rfl
@[simp] theorem State.closeConfig_draws (s : State) : (s.closeConfig).draws = s.draws := rfl

@[simp] theorem State.setData_cpu (s : State) (v : Byte) : (s.setData v).cpu = s.cpu := rfl
@[simp] theorem State.setData_ioc1 (s : State) (v : Byte) : (s.setData v).ioc1 = s.ioc1 := rfl
@[simp] theorem State.setData_ioc2 (s : State) (v : Byte) : (s.setData v).ioc2 = s.ioc2 := rfl
@[simp] theorem State.setData_vic (s : State) (v : Byte) : (s.setData v).vic = s.vic := rfl
@[simp] theorem State.setData_pins (s : State) (v : Byte) : (s.setData v).pins = { s.pins with data := v } := rfl
@[simp] theorem State.setData_mem (s : State) (v : Byte) : (s.setData v).mem = s.mem := rfl
@[simp] theorem State.setData_cartLen (s : State) (v : Byte) : (s.setData v).cartLen = s.cartLen := rfl
@[simp] theorem State.setData_regionsCpu (s : State) (v : Byte) : (s.setData v).regionsCpu = s.regionsCpu := rfl
@[simp] theorem State.setData_regionsVid (s : State) (v : Byte) : (s.setData v).regionsVid = s.regionsVid := rfl
@[simp] theorem State.setData_kbd (s : State) (v : Byte) : (s.setData v).kbd = s.kbd := rfl
@[simp] theorem State.setData_cols (s : State) (v : Byte) : (s.setData v).cols = s.cols := rfl
@[simp] theorem State.setData_audio (s : State) (v : Byte) : (s.setData v).audio = s.audio := rfl
@[simp] theorem State.setData_valid (s : State) (v : Byte) : (s.setData v).valid = s.valid := rfl
@[simp] theorem State.setData_refused (s : State) (v : Byte) : (s.setData v).refused = s.refused := rfl
@[simp] theorem State.setData_configPhase (s : State) (v : Byte) : (s.setData v).configPhase = s.configPhase := rfl
@[simp] theorem State.setData_params (s : State) (v : Byte) : (s.setData v).params = s.params := rfl
@[simp] theorem State.setData_inbox (s : State) (v : Byte) : (s.setData v).inbox = s.inbox := rfl
@[simp] theorem State.setData_result (s : State) (v : Byte) : (s.setData v).result = s.result := rfl
@[simp] theorem State.setData_trace (s : State) (v : Byte) : (s.setData v).trace = s.trace := rfl
@[simp] theorem State.setData_draws (s : State) (v : Byte) : (s.setData v).draws = s.draws := rfl

@[simp] theorem State.setKbd_cpu (s : State) (k : Keyboard) : (s.setKbd k).cpu = s.cpu := rfl
@[simp] theorem State.setKbd_ioc1 (s : State) (k : Keyboard) : (s.setKbd k).ioc1 = s.ioc1 := rfl
@[simp] theorem State.setKbd_ioc2 (s : State) (k : Keyboard) : (s.setKbd k).ioc2 = s.ioc2 := rfl
@[simp] theorem State.setKbd_vic (s : State) (k : Keyboard) : (s.setKbd k).vic = s.vic := rfl
@[simp] theorem State.setKbd_pins (s : State) (k : Keyboard) : (s.setKbd k).pins = s.pins := rfl
@[simp] theorem State.setKbd_mem (s : State) (k : Keyboard) : (s.setKbd k).mem = s.mem := rfl
@[simp] theorem State.setKbd_cartLen (s : State) (k : Keyboard) : (s.setKbd k).cartLen = s.cartLen := rfl
@[simp] theorem State.setKbd_regionsCpu (s : State) (k : Keyboard) : (s.setKbd k).regionsCpu = s.regionsCpu := rfl
@[simp] theorem State.setKbd_regionsVid (s : State) (k : Keyboard) : (s.setKbd k).regionsVid = s.regionsVid := rfl
@[simp] theorem State.setKbd_kbd (s : State) (k : Keyboard) : (s.setKbd k).kbd = k := rfl
@[simp] theorem State.setKbd_cols (s : State) (k : Keyboard) : (s.setKbd k).cols = s.cols := rfl
@[simp] theorem State.setKbd_audio (s : State) (k : Keyboard) : (s.setKbd k).audio = s.audio := rfl
@[simp] theorem State.setKbd_valid (s : State) (k : Keyboard) : (s.setKbd k).valid = s.valid := rfl
@[simp] theorem State.setKbd_refused (s : State) (k : Keyboard) : (s.setKbd k).refused = s.refused := rfl
@[simp] theorem State.setKbd_configPhase (s : State) (k : Keyboard) : (s.setKbd k).configPhase = s.configPhase := rfl
@[simp] theorem State.setKbd_params (s : State) (k : Keyboard) : (s.setKbd k).params = s.params := rfl
@[simp] theorem State.setKbd_inbox (s : State) (k : Keyboard) : (s.setKbd k).inbox = s.inbox := rfl
@[simp] theorem State.setKbd_result (s : State) (k : Keyboard) : (s.setKbd k).result = s.result := rfl
@[simp] theorem State.setKbd_trace (s : State) (k : Keyboard) : (s.setKbd k).trace = s.trace := rfl
@[simp] theorem State.setKbd_draws (s : State) (k : Keyboard) : (s.setKbd k).draws = s.draws := rfl

@[simp] theorem State.kbdAdvance_cpu (s : State) (u : Nat) : (s.kbdAdvance u).cpu = s.cpu := rfl
@[simp] theorem State.kbdAdvance_ioc1 (s : State) (u : Nat) : (s.kbdAdvance u).ioc1 = s.ioc1 := rfl
@[simp] theorem State.kbdAdvance_ioc2 (s : State) (u : Nat) : (s.kbdAdvance u).ioc2 = s.ioc2 := rfl
@[simp] theorem State.kbdAdvance_vic (s : State) (u : Nat) : (s.kbdAdvance u).vic = s.vic := rfl
@[simp] theorem State.kbdAdvance_pins (s : State) (u : Nat) : (s.kbdAdvance u).pins = s.pins := rfl
@[simp] theorem State.kbdAdvance_mem (s : State) (u : Nat) : (s.kbdAdvance u).mem = s.mem := rfl
@[simp] theorem State.kbdAdvance_cartLen (s : State) (u : Nat) : (s.kbdAdvance u).cartLen = s.cartLen := rfl
@[simp] theorem State.kbdAdvance_regionsCpu (s : State) (u : Nat) : (s.kbdAdvance u).regionsCpu = s.regionsCpu := rfl
@[simp] theorem State.kbdAdvance_regionsVid (s : State) (u : Nat) : (s.kbdAdvance u).regionsVid = s.regionsVid := rfl
@[simp] theorem State.kbdAdvance_kbd (s : State) (u : Nat) : (s.kbdAdvance u).kbd = s.kbd.advance s.params.kbdHoldUs u := rfl
@[simp] theorem State.kbdAdvance_cols (s : State) (u : Nat) : (s.kbdAdvance u).cols = s.cols := rfl
@[simp] theorem State.kbdAdvance_audio (s : State) (u : Nat) : (s.kbdAdvance u).audio = s.audio := rfl
@[simp] theorem State.kbdAdvance_valid (s : State) (u : Nat) : (s.kbdAdvance u).valid = s.valid := rfl
@[simp] theorem State.kbdAdvance_refused (s : State) (u : Nat) : (s.kbdAdvance u).refused = s.refused := rfl
@[simp] theorem State.kbdAdvance_configPhase (s : State) (u : Nat) : (s.kbdAdvance u).configPhase = s.configPhase := rfl
@[simp] theorem State.kbdAdvance_params (s : State) (u : Nat) : (s.kbdAdvance u).params = s.params := rfl
@[simp] theorem State.kbdAdvance_inbox (s : State) (u : Nat) : (s.kbdAdvance u).inbox = s.inbox := rfl
@[simp] theorem State.kbdAdvance_result (s : State) (u : Nat) : (s.kbdAdvance u).result = s.result := rfl
@[simp] theorem State.kbdAdvance_trace (s : State) (u : Nat) : (s.kbdAdvance u).trace = s.trace := rfl
@[simp] theorem State.kbdAdvance_draws (s : State) (u : Nat) : (s.kbdAdvance u).draws = s.draws := rfl

@[simp] theorem State.withInbox_cpu (s : State) (fs : List Frame) : (s.withInbox fs).cpu = s.cpu := rfl
@[simp] theorem State.withInbox_ioc1 (s : State) (fs : List Frame) : (s.withInbox fs).ioc1 = s.ioc1 := rfl
@[simp] theorem State.withInbox_ioc2 (s : State) (fs : List Frame) : (s.withInbox fs).ioc2 = s.ioc2 := rfl
@[simp] theorem State.withInbox_vic (s : State) (fs : List Frame) : (s.withInbox fs).vic = s.vic := rfl
@[simp] theorem State.withInbox_pins (s : State) (fs : List Frame) : (s.withInbox fs).pins = s.pins := rfl
@[simp] theorem State.withInbox_mem (s : State) (fs : List Frame) : (s.withInbox fs).mem = s.mem := rfl
@[simp] theorem State.withInbox_cartLen (s : State) (fs : List Frame) : (s.withInbox fs).cartLen = s.cartLen := rfl
@[simp] theorem State.withInbox_regionsCpu (s : State) (fs : List Frame) : (s.withInbox fs).regionsCpu = s.regionsCpu := rfl
@[simp] theorem State.withInbox_regionsVid (s : State) (fs : List Frame) : (s.withInbox fs).regionsVid = s.regionsVid := rfl
@[simp] theorem State.withInbox_kbd (s : State) (fs : List Frame) : (s.withInbox fs).kbd = s.kbd := rfl
@[simp] theorem State.withInbox_cols (s : State) (fs : List Frame) : (s.withInbox fs).cols = s.cols := rfl
@[simp] theorem State.withInbox_audio (s : State) (fs : List Frame) : (s.withInbox fs).audio = s.audio := rfl
@[simp] theorem State.withInbox_valid (s : State) (fs : List Frame) : (s.withInbox fs).valid = s.valid := rfl
@[simp] theorem State.withInbox_refused (s : State) (fs : List Frame) : (s.withInbox fs).refused = s.refused := rfl
@[simp] theorem State.withInbox_configPhase (s : State) (fs : List Frame) : (s.withInbox fs).configPhase = s.configPhase := rfl
@[simp] theorem State.withInbox_params (s : State) (fs : List Frame) : (s.withInbox fs).params = s.params := rfl
@[simp] theorem State.withInbox_inbox (s : State) (fs : List Frame) : (s.withInbox fs).inbox = fs := rfl
@[simp] theorem State.withInbox_result (s : State) (fs : List Frame) : (s.withInbox fs).result = s.result := rfl
@[simp] theorem State.withInbox_trace (s : State) (fs : List Frame) : (s.withInbox fs).trace = s.trace := rfl
@[simp] theorem State.withInbox_draws (s : State) (fs : List Frame) : (s.withInbox fs).draws = s.draws := rfl

@[simp] theorem State.discard_cpu (s : State) : (s.discard).cpu = s.cpu := rfl
@[simp] theorem State.discard_ioc1 (s : State) : (s.discard).ioc1 = s.ioc1 := rfl
@[simp] theorem State.discard_ioc2 (s : State) : (s.discard).ioc2 = s.ioc2 := rfl
@[simp] theorem State.discard_vic (s : State) : (s.discard).vic = s.vic := rfl
@[simp] theorem State.discard_pins (s : State) : (s.discard).pins = s.pins := rfl
@[simp] theorem State.discard_mem (s : State) : (s.discard).mem = s.mem := rfl
@[simp] theorem State.discard_cartLen (s : State) : (s.discard).cartLen = s.cartLen := rfl
@[simp] theorem State.discard_regionsCpu (s : State) : (s.discard).regionsCpu = s.regionsCpu := rfl
@[simp] theorem State.discard_regionsVid (s : State) : (s.discard).regionsVid = s.regionsVid := rfl
@[simp] theorem State.discard_kbd (s : State) : (s.discard).kbd = s.kbd := rfl
@[simp] theorem State.discard_cols (s : State) : (s.discard).cols = s.cols := rfl
@[simp] theorem State.discard_audio (s : State) : (s.discard).audio = s.audio := rfl
@[simp] theorem State.discard_valid (s : State) : (s.discard).valid = false := rfl
@[simp] theorem State.discard_refused (s : State) : (s.discard).refused = s.refused := rfl
@[simp] theorem State.discard_configPhase (s : State) : (s.discard).configPhase = s.configPhase := rfl
@[simp] theorem State.discard_params (s : State) : (s.discard).params = s.params := rfl
@[simp] theorem State.discard_inbox (s : State) : (s.discard).inbox = s.inbox := rfl
@[simp] theorem State.discard_result (s : State) : (s.discard).result = s.result := rfl
@[simp] theorem State.discard_trace (s : State) : (s.discard).trace = s.trace := rfl
@[simp] theorem State.discard_draws (s : State) : (s.discard).draws = s.draws := rfl

@[simp] theorem State.clearLines_cpu (s : State) : (s.clearLines).cpu = s.cpu := rfl
@[simp] theorem State.clearLines_ioc1 (s : State) : (s.clearLines).ioc1 = s.ioc1 := rfl
@[simp] theorem State.clearLines_ioc2 (s : State) : (s.clearLines).ioc2 = s.ioc2 := rfl
@[simp] theorem State.clearLines_vic (s : State) : (s.clearLines).vic = s.vic := rfl
@[simp] theorem State.clearLines_pins (s : State) : (s.clearLines).pins = Pins.clearLines s.pins := rfl
@[simp] theorem State.clearLines_mem (s : State) : (s.clearLines).mem = s.mem := rfl
@[simp] theorem State.clearLines_cartLen (s : State) : (s.clearLines).cartLen = s.cartLen := rfl
@[simp] theorem State.clearLines_regionsCpu (s : State) : (s.clearLines).regionsCpu = s.regionsCpu := rfl
@[simp] theorem State.clearLines_regionsVid (s : State) : (s.clearLines).regionsVid = s.regionsVid := rfl
@[simp] theorem State.clearLines_kbd (s : State) : (s.clearLines).kbd = s.kbd := rfl
@[simp] theorem State.clearLines_cols (s : State) : (s.clearLines).cols = s.cols := rfl
@[simp] theorem State.clearLines_audio (s : State) : (s.clearLines).audio = s.audio := rfl
@[simp] theorem State.clearLines_valid (s : State) : (s.clearLines).valid = s.valid := rfl
@[simp] theorem State.clearLines_refused (s : State) : (s.clearLines).refused = s.refused := rfl
@[simp] theorem State.clearLines_configPhase (s : State) : (s.clearLines).configPhase = s.configPhase := rfl
@[simp] theorem State.clearLines_params (s : State) : (s.clearLines).params = s.params := rfl
@[simp] theorem State.clearLines_inbox (s : State) : (s.clearLines).inbox = s.inbox := rfl
@[simp] theorem State.clearLines_result (s : State) : (s.clearLines).result = s.result := rfl
@[simp] theorem State.clearLines_trace (s : State) : (s.clearLines).trace = s.trace := rfl
@[simp] theorem State.clearLines_draws (s : State) : (s.clearLines).draws = s.draws := rfl

@[simp] theorem State.driveRead_cpu (s : State) (a : Addr) : (s.driveRead a).cpu = s.cpu := rfl
@[simp] theorem State.driveRead_ioc1 (s : State) (a : Addr) : (s.driveRead a).ioc1 = s.ioc1 := rfl
@[simp] theorem State.driveRead_ioc2 (s : State) (a : Addr) : (s.driveRead a).ioc2 = s.ioc2 := rfl
@[simp] theorem State.driveRead_vic (s : State) (a : Addr) : (s.driveRead a).vic = s.vic := rfl
@[simp] theorem State.driveRead_pins (s : State) (a : Addr) : (s.driveRead a).pins = { s.pins with addr := a, rw := .rd } := rfl
@[simp] theorem State.driveRead_mem (s : State) (a : Addr) : (s.driveRead a).mem = s.mem := rfl
@[simp] theorem State.driveRead_cartLen (s : State) (a : Addr) : (s.driveRead a).cartLen = s.cartLen := rfl
@[simp] theorem State.driveRead_regionsCpu (s : State) (a : Addr) : (s.driveRead a).regionsCpu = s.regionsCpu := rfl
@[simp] theorem State.driveRead_regionsVid (s : State) (a : Addr) : (s.driveRead a).regionsVid = s.regionsVid := rfl
@[simp] theorem State.driveRead_kbd (s : State) (a : Addr) : (s.driveRead a).kbd = s.kbd := rfl
@[simp] theorem State.driveRead_cols (s : State) (a : Addr) : (s.driveRead a).cols = s.cols := rfl
@[simp] theorem State.driveRead_audio (s : State) (a : Addr) : (s.driveRead a).audio = s.audio := rfl
@[simp] theorem State.driveRead_valid (s : State) (a : Addr) : (s.driveRead a).valid = s.valid := rfl
@[simp] theorem State.driveRead_refused (s : State) (a : Addr) : (s.driveRead a).refused = s.refused := rfl
@[simp] theorem State.driveRead_configPhase (s : State) (a : Addr) : (s.driveRead a).configPhase = s.configPhase := rfl
@[simp] theorem State.driveRead_params (s : State) (a : Addr) : (s.driveRead a).params = s.params := rfl
@[simp] theorem State.driveRead_inbox (s : State) (a : Addr) : (s.driveRead a).inbox = s.inbox := rfl
@[simp] theorem State.driveRead_result (s : State) (a : Addr) : (s.driveRead a).result = s.result := rfl
@[simp] theorem State.driveRead_trace (s : State) (a : Addr) : (s.driveRead a).trace = s.trace := rfl
@[simp] theorem State.driveRead_draws (s : State) (a : Addr) : (s.driveRead a).draws = s.draws := rfl

@[simp] theorem State.driveWrite_cpu (s : State) (a : Addr) (d : Byte) : (s.driveWrite a d).cpu = s.cpu := rfl
@[simp] theorem State.driveWrite_ioc1 (s : State) (a : Addr) (d : Byte) : (s.driveWrite a d).ioc1 = s.ioc1 := rfl
@[simp] theorem State.driveWrite_ioc2 (s : State) (a : Addr) (d : Byte) : (s.driveWrite a d).ioc2 = s.ioc2 := rfl
@[simp] theorem State.driveWrite_vic (s : State) (a : Addr) (d : Byte) : (s.driveWrite a d).vic = s.vic := rfl
@[simp] theorem State.driveWrite_pins (s : State) (a : Addr) (d : Byte) : (s.driveWrite a d).pins = { s.pins with addr := a, rw := .wr, data := d } := rfl
@[simp] theorem State.driveWrite_mem (s : State) (a : Addr) (d : Byte) : (s.driveWrite a d).mem = s.mem := rfl
@[simp] theorem State.driveWrite_cartLen (s : State) (a : Addr) (d : Byte) : (s.driveWrite a d).cartLen = s.cartLen := rfl
@[simp] theorem State.driveWrite_regionsCpu (s : State) (a : Addr) (d : Byte) : (s.driveWrite a d).regionsCpu = s.regionsCpu := rfl
@[simp] theorem State.driveWrite_regionsVid (s : State) (a : Addr) (d : Byte) : (s.driveWrite a d).regionsVid = s.regionsVid := rfl
@[simp] theorem State.driveWrite_kbd (s : State) (a : Addr) (d : Byte) : (s.driveWrite a d).kbd = s.kbd := rfl
@[simp] theorem State.driveWrite_cols (s : State) (a : Addr) (d : Byte) : (s.driveWrite a d).cols = s.cols := rfl
@[simp] theorem State.driveWrite_audio (s : State) (a : Addr) (d : Byte) : (s.driveWrite a d).audio = s.audio := rfl
@[simp] theorem State.driveWrite_valid (s : State) (a : Addr) (d : Byte) : (s.driveWrite a d).valid = s.valid := rfl
@[simp] theorem State.driveWrite_refused (s : State) (a : Addr) (d : Byte) : (s.driveWrite a d).refused = s.refused := rfl
@[simp] theorem State.driveWrite_configPhase (s : State) (a : Addr) (d : Byte) : (s.driveWrite a d).configPhase = s.configPhase := rfl
@[simp] theorem State.driveWrite_params (s : State) (a : Addr) (d : Byte) : (s.driveWrite a d).params = s.params := rfl
@[simp] theorem State.driveWrite_inbox (s : State) (a : Addr) (d : Byte) : (s.driveWrite a d).inbox = s.inbox := rfl
@[simp] theorem State.driveWrite_result (s : State) (a : Addr) (d : Byte) : (s.driveWrite a d).result = s.result := rfl
@[simp] theorem State.driveWrite_trace (s : State) (a : Addr) (d : Byte) : (s.driveWrite a d).trace = s.trace := rfl
@[simp] theorem State.driveWrite_draws (s : State) (a : Addr) (d : Byte) : (s.driveWrite a d).draws = s.draws := rfl

@[simp] theorem State.cpuStep_cpu (s : State) (ch : Chips) : (s.cpuStep ch).cpu = (ch.cpuTick s.cpu s.pins).1 := rfl
@[simp] theorem State.cpuStep_ioc1 (s : State) (ch : Chips) : (s.cpuStep ch).ioc1 = s.ioc1 := rfl
@[simp] theorem State.cpuStep_ioc2 (s : State) (ch : Chips) : (s.cpuStep ch).ioc2 = s.ioc2 := rfl
@[simp] theorem State.cpuStep_vic (s : State) (ch : Chips) : (s.cpuStep ch).vic = s.vic := rfl
@[simp] theorem State.cpuStep_pins (s : State) (ch : Chips) : (s.cpuStep ch).pins = (ch.cpuTick s.cpu s.pins).2 := rfl
@[simp] theorem State.cpuStep_mem (s : State) (ch : Chips) : (s.cpuStep ch).mem = s.mem := rfl
@[simp] theorem State.cpuStep_cartLen (s : State) (ch : Chips) : (s.cpuStep ch).cartLen = s.cartLen := rfl
@[simp] theorem State.cpuStep_regionsCpu (s : State) (ch : Chips) : (s.cpuStep ch).regionsCpu = s.regionsCpu := rfl
@[simp] theorem State.cpuStep_regionsVid (s : State) (ch : Chips) : (s.cpuStep ch).regionsVid = s.regionsVid := rfl
@[simp] theorem State.cpuStep_kbd (s : State) (ch : Chips) : (s.cpuStep ch).kbd = s.kbd := rfl
@[simp] theorem State.cpuStep_cols (s : State) (ch : Chips) : (s.cpuStep ch).cols = s.cols := rfl
@[simp] theorem State.cpuStep_audio (s : State) (ch : Chips) : (s.cpuStep ch).audio = s.audio := rfl
@[simp] theorem State.cpuStep_valid (s : State) (ch : Chips) : (s.cpuStep ch).valid = s.valid := rfl
@[simp] theorem State.cpuStep_refused (s : State) (ch : Chips) : (s.cpuStep ch).refused = s.refused := rfl
@[simp] theorem State.cpuStep_configPhase (s : State) (ch : Chips) : (s.cpuStep ch).configPhase = s.configPhase := rfl
@[simp] theorem State.cpuStep_params (s : State) (ch : Chips) : (s.cpuStep ch).params = s.params := rfl
@[simp] theorem State.cpuStep_inbox (s : State) (ch : Chips) : (s.cpuStep ch).inbox = s.inbox := rfl
@[simp] theorem State.cpuStep_result (s : State) (ch : Chips) : (s.cpuStep ch).result = s.result := rfl
@[simp] theorem State.cpuStep_trace (s : State) (ch : Chips) : (s.cpuStep ch).trace = s.trace := rfl
@[simp] theorem State.cpuStep_draws (s : State) (ch : Chips) : (s.cpuStep ch).draws = s.draws := rfl

@[simp] theorem State.loadCart_cpu (s : State) (p : List Byte) : (s.loadCart p).cpu = s.cpu := rfl
@[simp] theorem State.loadCart_ioc1 (s : State) (p : List Byte) : (s.loadCart p).ioc1 = s.ioc1 := rfl
@[simp] theorem State.loadCart_ioc2 (s : State) (p : List Byte) : (s.loadCart p).ioc2 = s.ioc2 := rfl
@[simp] theorem State.loadCart_vic (s : State) (p : List Byte) : (s.loadCart p).vic = s.vic := rfl
@[simp] theorem State.loadCart_pins (s : State) (p : List Byte) : (s.loadCart p).pins = s.pins := rfl
@[simp] theorem State.loadCart_mem (s : State) (p : List Byte) : (s.loadCart p).mem = Memory.writeRun (Memory.dropBank s.mem .cart) (cellKey .cart 0) p := rfl
@[simp] theorem State.loadCart_cartLen (s : State) (p : List Byte) : (s.loadCart p).cartLen = p.length := rfl
@[simp] theorem State.loadCart_regionsCpu (s : State) (p : List Byte) : (s.loadCart p).regionsCpu = s.withoutCart ++ [cartRegion p.length] := rfl
@[simp] theorem State.loadCart_regionsVid (s : State) (p : List Byte) : (s.loadCart p).regionsVid = s.regionsVid := rfl
@[simp] theorem State.loadCart_kbd (s : State) (p : List Byte) : (s.loadCart p).kbd = s.kbd := rfl
@[simp] theorem State.loadCart_cols (s : State) (p : List Byte) : (s.loadCart p).cols = s.cols := rfl
@[simp] theorem State.loadCart_audio (s : State) (p : List Byte) : (s.loadCart p).audio = s.audio := rfl
@[simp] theorem State.loadCart_valid (s : State) (p : List Byte) : (s.loadCart p).valid = s.valid := rfl
@[simp] theorem State.loadCart_refused (s : State) (p : List Byte) : (s.loadCart p).refused = s.refused := rfl
@[simp] theorem State.loadCart_configPhase (s : State) (p : List Byte) : (s.loadCart p).configPhase = s.configPhase := rfl
@[simp] theorem State.loadCart_params (s : State) (p : List Byte) : (s.loadCart p).params = s.params := rfl
@[simp] theorem State.loadCart_inbox (s : State) (p : List Byte) : (s.loadCart p).inbox = s.inbox := rfl
@[simp] theorem State.loadCart_result (s : State) (p : List Byte) : (s.loadCart p).result = s.result := rfl
@[simp] theorem State.loadCart_trace (s : State) (p : List Byte) : (s.loadCart p).trace = s.trace := rfl
@[simp] theorem State.loadCart_draws (s : State) (p : List Byte) : (s.loadCart p).draws = s.draws := rfl

@[simp] theorem State.resetBlock_cpu (s : State) (ch : Chips) : (s.resetBlock ch).cpu = ch.cpuReset s.cpu := rfl
@[simp] theorem State.resetBlock_ioc1 (s : State) (ch : Chips) : (s.resetBlock ch).ioc1 = ch.ioc1Reset s.ioc1 := rfl
@[simp] theorem State.resetBlock_ioc2 (s : State) (ch : Chips) : (s.resetBlock ch).ioc2 = ch.ioc2Reset s.ioc2 := rfl
@[simp] theorem State.resetBlock_vic (s : State) (ch : Chips) : (s.resetBlock ch).vic = ch.vicReset s.vic := rfl
@[simp] theorem State.resetBlock_pins (s : State) (ch : Chips) : (s.resetBlock ch).pins = pinsAtReset s.params.pinReset := rfl
@[simp] theorem State.resetBlock_mem (s : State) (ch : Chips) : (s.resetBlock ch).mem = s.mem := rfl
@[simp] theorem State.resetBlock_cartLen (s : State) (ch : Chips) : (s.resetBlock ch).cartLen = s.cartLen := rfl
@[simp] theorem State.resetBlock_regionsCpu (s : State) (ch : Chips) : (s.resetBlock ch).regionsCpu = s.regionsCpu := rfl
@[simp] theorem State.resetBlock_regionsVid (s : State) (ch : Chips) : (s.resetBlock ch).regionsVid = s.regionsVid := rfl
@[simp] theorem State.resetBlock_kbd (s : State) (ch : Chips) : (s.resetBlock ch).kbd = s.kbd := rfl
@[simp] theorem State.resetBlock_cols (s : State) (ch : Chips) : (s.resetBlock ch).cols = 0 := rfl
@[simp] theorem State.resetBlock_audio (s : State) (ch : Chips) : (s.resetBlock ch).audio = { s.audio with pos := 0 } := rfl
@[simp] theorem State.resetBlock_valid (s : State) (ch : Chips) : (s.resetBlock ch).valid = s.valid := rfl
@[simp] theorem State.resetBlock_refused (s : State) (ch : Chips) : (s.resetBlock ch).refused = s.refused := rfl
@[simp] theorem State.resetBlock_configPhase (s : State) (ch : Chips) : (s.resetBlock ch).configPhase = s.configPhase := rfl
@[simp] theorem State.resetBlock_params (s : State) (ch : Chips) : (s.resetBlock ch).params = s.params := rfl
@[simp] theorem State.resetBlock_inbox (s : State) (ch : Chips) : (s.resetBlock ch).inbox = s.inbox := rfl
@[simp] theorem State.resetBlock_result (s : State) (ch : Chips) : (s.resetBlock ch).result = s.result := rfl
@[simp] theorem State.resetBlock_trace (s : State) (ch : Chips) : (s.resetBlock ch).trace = s.trace := rfl
@[simp] theorem State.resetBlock_draws (s : State) (ch : Chips) : (s.resetBlock ch).draws = s.draws := rfl

end Sys2Proof.Machine
end

