-- ==== Sys2Proof/Laws/Ops.lean ====
section
/-! SUPPORT. What each shared operation with a choice in it can do: the write of a logical space, lookup, registration, the
audio buffer, the keyboard cells. -/

namespace Sys2Proof.Machine

/-! ### Writing a logical space (20_memory.md R46) -/

/-- A write changes the memory only. -/
theorem State.memWrite_eq (s : State) (sp : Space) (a : Addr) (v : Byte) :
    s.memWrite sp a v = { s with mem := (s.memWrite sp a v).mem } := by
  unfold State.memWrite; split <;> rfl

/-- The memory after a write: one cell of an RW effective region, or nothing. -/
theorem State.memWrite_mem (s : State) (sp : Space) (a : Addr) (v : Byte) :
    (s.memWrite sp a v).mem = match s.writeKey sp a with
      | some k => Memory.write s.mem k v
      | none => s.mem := by
  unfold State.memWrite; split <;> simp_all

theorem State.memWrite_none {s : State} {sp : Space} {a : Addr} (v : Byte) (h : s.writeKey sp a = none) :
    s.memWrite sp a v = s := by
  simp [State.memWrite, h]

theorem State.memWrite_some {s : State} {sp : Space} {a : Addr} {k : Nat} (v : Byte) (h : s.writeKey sp a = some k) :
    s.memWrite sp a v = { s with mem := Memory.write s.mem k v } := by
  simp [State.memWrite, h]

/-- Every cell after a write. -/
theorem State.read_memWrite (s : State) (sp : Space) (a : Addr) (v : Byte) (j : Nat) :
    Memory.read (s.memWrite sp a v).mem j = if s.writeKey sp a = some j then v else Memory.read s.mem j := by
  rw [State.memWrite_mem]
  cases h : s.writeKey sp a with
  | none => simp
  | some k => simp only [Memory.read_write, Option.some.injEq]; split <;> simp_all [eq_comm]

theorem State.memWrite_wf {s : State} (sp : Space) (a : Addr) (v : Byte) (h : Memory.wf s.mem) :
    Memory.wf (s.memWrite sp a v).mem := by
  rw [State.memWrite_mem]
  split
  · exact Memory.write_wf _ v h
  · exact h

@[simp] theorem State.memWrite_cpu (s : State) (sp : Space) (a : Addr) (v : Byte) : (s.memWrite sp a v).cpu = s.cpu := by
  unfold State.memWrite; split <;> rfl
@[simp] theorem State.memWrite_ioc1 (s : State) (sp : Space) (a : Addr) (v : Byte) : (s.memWrite sp a v).ioc1 = s.ioc1 := by
  unfold State.memWrite; split <;> rfl
@[simp] theorem State.memWrite_ioc2 (s : State) (sp : Space) (a : Addr) (v : Byte) : (s.memWrite sp a v).ioc2 = s.ioc2 := by
  unfold State.memWrite; split <;> rfl
@[simp] theorem State.memWrite_vic (s : State) (sp : Space) (a : Addr) (v : Byte) : (s.memWrite sp a v).vic = s.vic := by
  unfold State.memWrite; split <;> rfl
@[simp] theorem State.memWrite_pins (s : State) (sp : Space) (a : Addr) (v : Byte) : (s.memWrite sp a v).pins = s.pins := by
  unfold State.memWrite; split <;> rfl
@[simp] theorem State.memWrite_cartLen (s : State) (sp : Space) (a : Addr) (v : Byte) : (s.memWrite sp a v).cartLen = s.cartLen := by
  unfold State.memWrite; split <;> rfl
@[simp] theorem State.memWrite_regionsCpu (s : State) (sp : Space) (a : Addr) (v : Byte) : (s.memWrite sp a v).regionsCpu = s.regionsCpu := by
  unfold State.memWrite; split <;> rfl
@[simp] theorem State.memWrite_regionsVid (s : State) (sp : Space) (a : Addr) (v : Byte) : (s.memWrite sp a v).regionsVid = s.regionsVid := by
  unfold State.memWrite; split <;> rfl
@[simp] theorem State.memWrite_kbd (s : State) (sp : Space) (a : Addr) (v : Byte) : (s.memWrite sp a v).kbd = s.kbd := by
  unfold State.memWrite; split <;> rfl
@[simp] theorem State.memWrite_cols (s : State) (sp : Space) (a : Addr) (v : Byte) : (s.memWrite sp a v).cols = s.cols := by
  unfold State.memWrite; split <;> rfl
@[simp] theorem State.memWrite_audio (s : State) (sp : Space) (a : Addr) (v : Byte) : (s.memWrite sp a v).audio = s.audio := by
  unfold State.memWrite; split <;> rfl
@[simp] theorem State.memWrite_valid (s : State) (sp : Space) (a : Addr) (v : Byte) : (s.memWrite sp a v).valid = s.valid := by
  unfold State.memWrite; split <;> rfl
@[simp] theorem State.memWrite_refused (s : State) (sp : Space) (a : Addr) (v : Byte) : (s.memWrite sp a v).refused = s.refused := by
  unfold State.memWrite; split <;> rfl
@[simp] theorem State.memWrite_configPhase (s : State) (sp : Space) (a : Addr) (v : Byte) : (s.memWrite sp a v).configPhase = s.configPhase := by
  unfold State.memWrite; split <;> rfl
@[simp] theorem State.memWrite_params (s : State) (sp : Space) (a : Addr) (v : Byte) : (s.memWrite sp a v).params = s.params := by
  unfold State.memWrite; split <;> rfl
@[simp] theorem State.memWrite_inbox (s : State) (sp : Space) (a : Addr) (v : Byte) : (s.memWrite sp a v).inbox = s.inbox := by
  unfold State.memWrite; split <;> rfl
@[simp] theorem State.memWrite_result (s : State) (sp : Space) (a : Addr) (v : Byte) : (s.memWrite sp a v).result = s.result := by
  unfold State.memWrite; split <;> rfl
@[simp] theorem State.memWrite_trace (s : State) (sp : Space) (a : Addr) (v : Byte) : (s.memWrite sp a v).trace = s.trace := by
  unfold State.memWrite; split <;> rfl
@[simp] theorem State.memWrite_draws (s : State) (sp : Space) (a : Addr) (v : Byte) : (s.memWrite sp a v).draws = s.draws := by
  unfold State.memWrite; split <;> rfl

@[simp] theorem State.memWrite_regions (s : State) (sp sp' : Space) (a : Addr) (v : Byte) :
    (s.memWrite sp a v).regions sp' = s.regions sp' := by cases sp' <;> simp [State.regions]

@[simp] theorem State.memWrite_effective (s : State) (sp sp' : Space) (a b : Addr) (v : Byte) :
    (s.memWrite sp a v).effective sp' b = s.effective sp' b := by simp [State.effective]

@[simp] theorem State.memWrite_writeKey (s : State) (sp sp' : Space) (a b : Addr) (v : Byte) :
    (s.memWrite sp a v).writeKey sp' b = s.writeKey sp' b := by simp [State.writeKey]

/-! ### Lookup (20_memory.md R44, R45) -/

/-- The effective region is one of the table's, and covers the address. -/
theorem effectiveIn_spec {rs : List Region} {a : Addr} {r : Region} (h : effectiveIn rs a = some r) :
    r ∈ rs ∧ r.covers a = true := by
  unfold effectiveIn at h
  split at h
  · next q hq =>
    cases h
    have := List.find?_some hq
    exact ⟨List.mem_of_find?_eq_some hq, by simp_all⟩
  · have := List.find?_some h
    exact ⟨List.mem_of_find?_eq_some h, by simp_all⟩

theorem effectiveIn_none {rs : List Region} {a : Addr} (h : ∀ r ∈ rs, r.covers a = false) : effectiveIn rs a = none := by
  have h0 : ∀ l, coveringAt rs l a = none := fun l => List.find?_eq_none.mpr fun r hr => by simp [h r hr]
  simp [effectiveIn, h0]

/-- `MemRead` with the effective region known (R45). -/
theorem State.memRead_some {s : State} {sp : Space} {a : Addr} {r : Region} (h : s.effective sp a = some r) :
    s.memRead sp a = Memory.read s.mem (r.key a) := by simp [State.memRead, h]

theorem State.memRead_none {s : State} {sp : Space} {a : Addr} (h : s.effective sp a = none) : s.memRead sp a = fill := by
  simp [State.memRead, h]

theorem State.writeKey_rw {s : State} {sp : Space} {a : Addr} {r : Region} (h : s.effective sp a = some r) (hr : r.acc = .rw) :
    s.writeKey sp a = some (r.key a) := by simp [State.writeKey, h, hr]

theorem State.writeKey_ro {s : State} {sp : Space} {a : Addr} {r : Region} (h : s.effective sp a = some r) (hr : r.acc = .ro) :
    s.writeKey sp a = none := by simp [State.writeKey, h, hr]

/-- A read depends on the space's table and the memory only. -/
theorem State.memRead_congr {s t : State} {sp : Space} (hr : t.regions sp = s.regions sp) (hm : t.mem = s.mem) (a : Addr) :
    t.memRead sp a = s.memRead sp a := by simp [State.memRead, State.effective, hr, hm]

theorem State.writeKey_congr {s t : State} {sp : Space} (hr : t.regions sp = s.regions sp) (a : Addr) :
    t.writeKey sp a = s.writeKey sp a := by simp [State.writeKey, State.effective, hr]

/-- A fetch depends on the VID table, the memory and the draw counter only (R52). -/
theorem State.vfetch_congr {s t : State} (hr : t.regionsVid = s.regionsVid) (hm : t.mem = s.mem) (hd : t.draws = s.draws) :
    t.vfetch = s.vfetch := by
  funext n va
  have h : t.memRead .vid (videoAddr va) = s.memRead .vid (videoAddr va) := State.memRead_congr (sp := .vid) hr hm _
  simp [State.vfetch, State.bankByte, h, hm, hd]

/-! ### The audio buffer (40_tick_engine.md R102) -/

@[simp] theorem State.audioPush_cpu (s : State) (x : Sample) : (s.audioPush x).cpu = s.cpu := by
  unfold State.audioPush; split <;> rfl
@[simp] theorem State.audioPush_ioc1 (s : State) (x : Sample) : (s.audioPush x).ioc1 = s.ioc1 := by
  unfold State.audioPush; split <;> rfl
@[simp] theorem State.audioPush_ioc2 (s : State) (x : Sample) : (s.audioPush x).ioc2 = s.ioc2 := by
  unfold State.audioPush; split <;> rfl
@[simp] theorem State.audioPush_vic (s : State) (x : Sample) : (s.audioPush x).vic = s.vic := by
  unfold State.audioPush; split <;> rfl
@[simp] theorem State.audioPush_pins (s : State) (x : Sample) : (s.audioPush x).pins = s.pins := by
  unfold State.audioPush; split <;> rfl
@[simp] theorem State.audioPush_mem (s : State) (x : Sample) : (s.audioPush x).mem = s.mem := by
  unfold State.audioPush; split <;> rfl
@[simp] theorem State.audioPush_cartLen (s : State) (x : Sample) : (s.audioPush x).cartLen = s.cartLen := by
  unfold State.audioPush; split <;> rfl
@[simp] theorem State.audioPush_regionsCpu (s : State) (x : Sample) : (s.audioPush x).regionsCpu = s.regionsCpu := by
  unfold State.audioPush; split <;> rfl
@[simp] theorem State.audioPush_regionsVid (s : State) (x : Sample) : (s.audioPush x).regionsVid = s.regionsVid := by
  unfold State.audioPush; split <;> rfl
@[simp] theorem State.audioPush_kbd (s : State) (x : Sample) : (s.audioPush x).kbd = s.kbd := by
  unfold State.audioPush; split <;> rfl
@[simp] theorem State.audioPush_cols (s : State) (x : Sample) : (s.audioPush x).cols = s.cols := by
  unfold State.audioPush; split <;> rfl
@[simp] theorem State.audioPush_valid (s : State) (x : Sample) : (s.audioPush x).valid = s.valid := by
  unfold State.audioPush; split <;> rfl
@[simp] theorem State.audioPush_refused (s : State) (x : Sample) : (s.audioPush x).refused = s.refused := by
  unfold State.audioPush; split <;> rfl
@[simp] theorem State.audioPush_configPhase (s : State) (x : Sample) : (s.audioPush x).configPhase = s.configPhase := by
  unfold State.audioPush; split <;> rfl
@[simp] theorem State.audioPush_params (s : State) (x : Sample) : (s.audioPush x).params = s.params := by
  unfold State.audioPush; split <;> rfl
@[simp] theorem State.audioPush_inbox (s : State) (x : Sample) : (s.audioPush x).inbox = s.inbox := by
  unfold State.audioPush; split <;> rfl
@[simp] theorem State.audioPush_result (s : State) (x : Sample) : (s.audioPush x).result = s.result := by
  unfold State.audioPush; split <;> rfl
@[simp] theorem State.audioPush_draws (s : State) (x : Sample) : (s.audioPush x).draws = s.draws := by
  unfold State.audioPush; split <;> rfl

@[simp] theorem State.audioPush_length (s : State) (x : Sample) : (s.audioPush x).audio.buf.length = s.audio.buf.length := by
  unfold State.audioPush; split <;> simp

/-! ### Quickload (43_host_operations.md R169) -/

/-- A load of bytes changes the memory only. -/
theorem State.loadBytes_eq (a : Addr) (bs : List Byte) (s : State) :
    s.loadBytes a bs = { s with mem := (s.loadBytes a bs).mem } := by
  induction bs generalizing a s with
  | nil => rfl
  | cons b bs ih =>
    rw [State.loadBytes, ih]
    congr 1 <;> simp

theorem State.loadBytes_wf (a : Addr) (bs : List Byte) {s : State} (h : Memory.wf s.mem) :
    Memory.wf (s.loadBytes a bs).mem := by
  induction bs generalizing a s with
  | nil => exact h
  | cons b bs ih => exact ih (a + 1) (State.memWrite_wf .cpu a b h)

@[simp] theorem State.loadBytes_cpu (a : Addr) (bs : List Byte) (s : State) : (s.loadBytes a bs).cpu = s.cpu := by
  rw [State.loadBytes_eq]
@[simp] theorem State.loadBytes_ioc1 (a : Addr) (bs : List Byte) (s : State) : (s.loadBytes a bs).ioc1 = s.ioc1 := by
  rw [State.loadBytes_eq]
@[simp] theorem State.loadBytes_ioc2 (a : Addr) (bs : List Byte) (s : State) : (s.loadBytes a bs).ioc2 = s.ioc2 := by
  rw [State.loadBytes_eq]
@[simp] theorem State.loadBytes_vic (a : Addr) (bs : List Byte) (s : State) : (s.loadBytes a bs).vic = s.vic := by
  rw [State.loadBytes_eq]
@[simp] theorem State.loadBytes_pins (a : Addr) (bs : List Byte) (s : State) : (s.loadBytes a bs).pins = s.pins := by
  rw [State.loadBytes_eq]
@[simp] theorem State.loadBytes_cartLen (a : Addr) (bs : List Byte) (s : State) : (s.loadBytes a bs).cartLen = s.cartLen := by
  rw [State.loadBytes_eq]
@[simp] theorem State.loadBytes_regionsCpu (a : Addr) (bs : List Byte) (s : State) : (s.loadBytes a bs).regionsCpu = s.regionsCpu := by
  rw [State.loadBytes_eq]
@[simp] theorem State.loadBytes_regionsVid (a : Addr) (bs : List Byte) (s : State) : (s.loadBytes a bs).regionsVid = s.regionsVid := by
  rw [State.loadBytes_eq]
@[simp] theorem State.loadBytes_kbd (a : Addr) (bs : List Byte) (s : State) : (s.loadBytes a bs).kbd = s.kbd := by
  rw [State.loadBytes_eq]
@[simp] theorem State.loadBytes_cols (a : Addr) (bs : List Byte) (s : State) : (s.loadBytes a bs).cols = s.cols := by
  rw [State.loadBytes_eq]
@[simp] theorem State.loadBytes_audio (a : Addr) (bs : List Byte) (s : State) : (s.loadBytes a bs).audio = s.audio := by
  rw [State.loadBytes_eq]
@[simp] theorem State.loadBytes_valid (a : Addr) (bs : List Byte) (s : State) : (s.loadBytes a bs).valid = s.valid := by
  rw [State.loadBytes_eq]
@[simp] theorem State.loadBytes_refused (a : Addr) (bs : List Byte) (s : State) : (s.loadBytes a bs).refused = s.refused := by
  rw [State.loadBytes_eq]
@[simp] theorem State.loadBytes_configPhase (a : Addr) (bs : List Byte) (s : State) : (s.loadBytes a bs).configPhase = s.configPhase := by
  rw [State.loadBytes_eq]
@[simp] theorem State.loadBytes_params (a : Addr) (bs : List Byte) (s : State) : (s.loadBytes a bs).params = s.params := by
  rw [State.loadBytes_eq]
@[simp] theorem State.loadBytes_inbox (a : Addr) (bs : List Byte) (s : State) : (s.loadBytes a bs).inbox = s.inbox := by
  rw [State.loadBytes_eq]
@[simp] theorem State.loadBytes_result (a : Addr) (bs : List Byte) (s : State) : (s.loadBytes a bs).result = s.result := by
  rw [State.loadBytes_eq]
@[simp] theorem State.loadBytes_trace (a : Addr) (bs : List Byte) (s : State) : (s.loadBytes a bs).trace = s.trace := by
  rw [State.loadBytes_eq]
@[simp] theorem State.loadBytes_draws (a : Addr) (bs : List Byte) (s : State) : (s.loadBytes a bs).draws = s.draws := by
  rw [State.loadBytes_eq]

/-! ### Keyboard cells (42_keyboard.md R145, R146) -/

theorem cellIndex_inj {x y : Coord} (h : cellIndex x = cellIndex y) : x = y := by
  obtain ⟨xc, xr⟩ := x
  obtain ⟨yc, yr⟩ := y
  have h := congrArg Fin.val h
  simp only [cellIndex] at h
  have hc : xc = yc := BitVec.eq_of_toNat_eq (by omega)
  have hr : xr = yr := BitVec.eq_of_toNat_eq (by omega)
  simp [hc, hr]

theorem Keyboard.cell_setCell (k : Keyboard) (x y : Coord) (c : KeyCell) :
    (k.setCell x c).cell y = if y = x then c else k.cell y := by
  unfold Keyboard.setCell Keyboard.cell
  by_cases h : y = x
  · subst h; simp
  · have : (cellIndex x).val ≠ (cellIndex y).val := fun e => h (cellIndex_inj (Fin.ext e.symm))
    simp [h, this]

@[simp] theorem Keyboard.setCell_modCell (k : Keyboard) (x : Coord) (c : KeyCell) : (k.setCell x c).modCell = k.modCell := rfl

@[simp] theorem Keyboard.setCell_keymap (k : Keyboard) (x : Coord) (c : KeyCell) : (k.setCell x c).keymap = k.keymap := rfl

@[simp] theorem Keyboard.press_modCell (k : Keyboard) (x : Coord) : (k.press x).modCell = k.modCell := rfl

@[simp] theorem Keyboard.press_keymap (k : Keyboard) (x : Coord) : (k.press x).keymap = k.keymap := rfl

@[simp] theorem Keyboard.release_modCell (hold : Nat) (k : Keyboard) (x : Coord) : (k.release hold x).modCell = k.modCell := rfl

@[simp] theorem Keyboard.release_keymap (hold : Nat) (k : Keyboard) (x : Coord) : (k.release hold x).keymap = k.keymap := rfl

@[simp] theorem Keyboard.advance_modCell (hold u : Nat) (k : Keyboard) : (k.advance hold u).modCell = k.modCell := rfl

@[simp] theorem Keyboard.advance_keymap (hold u : Nat) (k : Keyboard) : (k.advance hold u).keymap = k.keymap := rfl

theorem Keyboard.cell_advance (hold u : Nat) (k : Keyboard) (x : Coord) :
    (k.advance hold u).cell x = (k.cell x).advance hold u := by
  simp [Keyboard.advance, Keyboard.cell]

theorem Keyboard.onModifier_modCell (f : Keyboard → Coord → Keyboard) (hf : ∀ k x, (f k x).modCell = k.modCell)
    (mask : BitVec 2) (j : Fin 2) (k : Keyboard) : (k.onModifier f mask j).modCell = k.modCell := by
  unfold Keyboard.onModifier; split
  · split
    · exact hf _ _
    · rfl
  · rfl

theorem Keyboard.onModifier_keymap (f : Keyboard → Coord → Keyboard) (hf : ∀ k x, (f k x).keymap = k.keymap)
    (mask : BitVec 2) (j : Fin 2) (k : Keyboard) : (k.onModifier f mask j).keymap = k.keymap := by
  unfold Keyboard.onModifier; split
  · split
    · exact hf _ _
    · rfl
  · rfl

/-- Key actions keep the bindings and the keymap (R26, R144). -/
theorem Keyboard.keyDown_modCell (code : Byte) (k : Keyboard) : (k.keyDown code).modCell = k.modCell := by
  unfold Keyboard.keyDown; split
  · simp [Keyboard.onKey, Keyboard.onModifier_modCell Keyboard.press Keyboard.press_modCell]
  · rfl

theorem Keyboard.keyDown_keymap (code : Byte) (k : Keyboard) : (k.keyDown code).keymap = k.keymap := by
  unfold Keyboard.keyDown; split
  · simp [Keyboard.onKey, Keyboard.onModifier_keymap Keyboard.press Keyboard.press_keymap]
  · rfl

theorem Keyboard.keyUp_modCell (hold : Nat) (code : Byte) (k : Keyboard) : (k.keyUp hold code).modCell = k.modCell := by
  unfold Keyboard.keyUp; split
  · simp [Keyboard.onKey, Keyboard.onModifier_modCell (Keyboard.release hold) (Keyboard.release_modCell hold)]
  · rfl

theorem Keyboard.keyUp_keymap (hold : Nat) (code : Byte) (k : Keyboard) : (k.keyUp hold code).keymap = k.keymap := by
  unfold Keyboard.keyUp; split
  · simp [Keyboard.onKey, Keyboard.onModifier_keymap (Keyboard.release hold) (Keyboard.release_keymap hold)]
  · rfl

/-- Any property of cells that an action keeps at its coordinate is kept by a key's action (R145, R146). -/
theorem Keyboard.onKey_forall {P : KeyCell → Prop} (f : Keyboard → Coord → Keyboard)
    (hf : ∀ k x, (∀ y, P (k.cell y)) → ∀ y, P ((f k x).cell y)) (e : KeyEntry) (k : Keyboard) (h : ∀ y, P (k.cell y)) :
    ∀ y, P ((k.onKey f e).cell y) := by
  have hm : ∀ (j : Fin 2) (k : Keyboard), (∀ y, P (k.cell y)) → ∀ y, P ((k.onModifier f e.mask j).cell y) := by
    intro j k h
    unfold Keyboard.onModifier
    split
    · split
      · exact hf _ _ h
      · exact h
    · exact h
  exact hm 1 _ (hm 0 _ (hf _ _ h))

/-! ### The scan (42_keyboard.md R150) -/

/-- A row bit of the raw scan. -/
theorem Keyboard.getLsbD_scanRows (k : Keyboard) (cols : Byte) (r : Nat) (h : r < 8) :
    (k.scanRows cols).getLsbD r = k.rowActive cols (BitVec.ofNat 3 r) := by
  have : (BitVec.ofFin ⟨r, h⟩ : BitVec 3) = BitVec.ofNat 3 r := BitVec.eq_of_toNat_eq (by simp; omega)
  simp [Keyboard.scanRows, h, this]

/-- A row is active when some active column has a pressed cell in it. -/
theorem Keyboard.rowActive_iff (k : Keyboard) (cols : Byte) (r : BitVec 3) :
    k.rowActive cols r = true ↔ ∃ c : BitVec 3, cols.getLsbD c.toNat = true ∧ (k.cell ⟨c, r⟩).pressed = true := by
  unfold Keyboard.rowActive
  rw [List.any_eq_true]
  constructor
  · rintro ⟨c, -, h⟩
    exact ⟨c, by simpa using h⟩
  · rintro ⟨c, h⟩
    have hc : ∀ c, c ∈ columns := by decide
    exact ⟨c, hc c, by simpa using h⟩

end Sys2Proof.Machine
end

