-- ==== Sys2Proof/Laws/Tick.lean ====
section
/-! SUPPORT. What a tick and its steps can do (40_tick_engine.md R81): the fields each step leaves alone, the outcome of the
chip steps field by field, and the loops of EXEC. -/

namespace Sys2Proof.Machine

@[simp] theorem State.audioStep_cpu (q : VicOut) (s : State) : (s.audioStep q).cpu = s.cpu := by
  unfold State.audioStep; split <;> simp
@[simp] theorem State.audioStep_ioc1 (q : VicOut) (s : State) : (s.audioStep q).ioc1 = s.ioc1 := by
  unfold State.audioStep; split <;> simp
@[simp] theorem State.audioStep_ioc2 (q : VicOut) (s : State) : (s.audioStep q).ioc2 = s.ioc2 := by
  unfold State.audioStep; split <;> simp
@[simp] theorem State.audioStep_vic (q : VicOut) (s : State) : (s.audioStep q).vic = s.vic := by
  unfold State.audioStep; split <;> simp
@[simp] theorem State.audioStep_pins (q : VicOut) (s : State) : (s.audioStep q).pins = s.pins := by
  unfold State.audioStep; split <;> simp
@[simp] theorem State.audioStep_mem (q : VicOut) (s : State) : (s.audioStep q).mem = s.mem := by
  unfold State.audioStep; split <;> simp
@[simp] theorem State.audioStep_cartLen (q : VicOut) (s : State) : (s.audioStep q).cartLen = s.cartLen := by
  unfold State.audioStep; split <;> simp
@[simp] theorem State.audioStep_regionsCpu (q : VicOut) (s : State) : (s.audioStep q).regionsCpu = s.regionsCpu := by
  unfold State.audioStep; split <;> simp
@[simp] theorem State.audioStep_regionsVid (q : VicOut) (s : State) : (s.audioStep q).regionsVid = s.regionsVid := by
  unfold State.audioStep; split <;> simp
@[simp] theorem State.audioStep_kbd (q : VicOut) (s : State) : (s.audioStep q).kbd = s.kbd := by
  unfold State.audioStep; split <;> simp
@[simp] theorem State.audioStep_cols (q : VicOut) (s : State) : (s.audioStep q).cols = s.cols := by
  unfold State.audioStep; split <;> simp
@[simp] theorem State.audioStep_valid (q : VicOut) (s : State) : (s.audioStep q).valid = s.valid := by
  unfold State.audioStep; split <;> simp
@[simp] theorem State.audioStep_refused (q : VicOut) (s : State) : (s.audioStep q).refused = s.refused := by
  unfold State.audioStep; split <;> simp
@[simp] theorem State.audioStep_configPhase (q : VicOut) (s : State) : (s.audioStep q).configPhase = s.configPhase := by
  unfold State.audioStep; split <;> simp
@[simp] theorem State.audioStep_params (q : VicOut) (s : State) : (s.audioStep q).params = s.params := by
  unfold State.audioStep; split <;> simp
@[simp] theorem State.audioStep_inbox (q : VicOut) (s : State) : (s.audioStep q).inbox = s.inbox := by
  unfold State.audioStep; split <;> simp
@[simp] theorem State.audioStep_result (q : VicOut) (s : State) : (s.audioStep q).result = s.result := by
  unfold State.audioStep; split <;> simp
@[simp] theorem State.audioStep_draws (q : VicOut) (s : State) : (s.audioStep q).draws = s.draws := by
  unfold State.audioStep; split <;> simp

@[simp] theorem State.audioStep_length (q : VicOut) (s : State) : (s.audioStep q).audio.buf.length = s.audio.buf.length := by
  unfold State.audioStep; split <;> simp

/-! ### Step 2 (R89, R90) -/

@[simp] theorem State.floatBus_cpu (s : State) : s.floatBus.cpu = s.cpu := rfl
@[simp] theorem State.floatBus_ioc1 (s : State) : s.floatBus.ioc1 = s.ioc1 := rfl
@[simp] theorem State.floatBus_ioc2 (s : State) : s.floatBus.ioc2 = s.ioc2 := rfl
@[simp] theorem State.floatBus_vic (s : State) : s.floatBus.vic = s.vic := rfl
@[simp] theorem State.floatBus_mem (s : State) : s.floatBus.mem = s.mem := rfl
@[simp] theorem State.floatBus_cartLen (s : State) : s.floatBus.cartLen = s.cartLen := rfl
@[simp] theorem State.floatBus_regionsCpu (s : State) : s.floatBus.regionsCpu = s.regionsCpu := rfl
@[simp] theorem State.floatBus_regionsVid (s : State) : s.floatBus.regionsVid = s.regionsVid := rfl
@[simp] theorem State.floatBus_kbd (s : State) : s.floatBus.kbd = s.kbd := rfl
@[simp] theorem State.floatBus_cols (s : State) : s.floatBus.cols = s.cols := rfl
@[simp] theorem State.floatBus_audio (s : State) : s.floatBus.audio = s.audio := rfl
@[simp] theorem State.floatBus_valid (s : State) : s.floatBus.valid = s.valid := rfl
@[simp] theorem State.floatBus_refused (s : State) : s.floatBus.refused = s.refused := rfl
@[simp] theorem State.floatBus_configPhase (s : State) : s.floatBus.configPhase = s.configPhase := rfl
@[simp] theorem State.floatBus_params (s : State) : s.floatBus.params = s.params := rfl
@[simp] theorem State.floatBus_inbox (s : State) : s.floatBus.inbox = s.inbox := rfl
@[simp] theorem State.floatBus_result (s : State) : s.floatBus.result = s.result := rfl
@[simp] theorem State.floatBus_trace (s : State) : s.floatBus.trace = s.trace := rfl
@[simp] theorem State.floatBus_pins (s : State) : s.floatBus.pins = { s.pins with data := Config.draw s.draws 0 } := rfl
@[simp] theorem State.floatBus_draws (s : State) : s.floatBus.draws = s.draws + 1 := rfl

@[simp] theorem State.readMemory_cpu (s : State) : s.readMemory.cpu = s.cpu := rfl
@[simp] theorem State.readMemory_ioc1 (s : State) : s.readMemory.ioc1 = s.ioc1 := rfl
@[simp] theorem State.readMemory_ioc2 (s : State) : s.readMemory.ioc2 = s.ioc2 := rfl
@[simp] theorem State.readMemory_vic (s : State) : s.readMemory.vic = s.vic := rfl
@[simp] theorem State.readMemory_mem (s : State) : s.readMemory.mem = s.mem := rfl
@[simp] theorem State.readMemory_cartLen (s : State) : s.readMemory.cartLen = s.cartLen := rfl
@[simp] theorem State.readMemory_regionsCpu (s : State) : s.readMemory.regionsCpu = s.regionsCpu := rfl
@[simp] theorem State.readMemory_regionsVid (s : State) : s.readMemory.regionsVid = s.regionsVid := rfl
@[simp] theorem State.readMemory_kbd (s : State) : s.readMemory.kbd = s.kbd := rfl
@[simp] theorem State.readMemory_cols (s : State) : s.readMemory.cols = s.cols := rfl
@[simp] theorem State.readMemory_audio (s : State) : s.readMemory.audio = s.audio := rfl
@[simp] theorem State.readMemory_valid (s : State) : s.readMemory.valid = s.valid := rfl
@[simp] theorem State.readMemory_refused (s : State) : s.readMemory.refused = s.refused := rfl
@[simp] theorem State.readMemory_configPhase (s : State) : s.readMemory.configPhase = s.configPhase := rfl
@[simp] theorem State.readMemory_params (s : State) : s.readMemory.params = s.params := rfl
@[simp] theorem State.readMemory_inbox (s : State) : s.readMemory.inbox = s.inbox := rfl
@[simp] theorem State.readMemory_result (s : State) : s.readMemory.result = s.result := rfl
@[simp] theorem State.readMemory_trace (s : State) : s.readMemory.trace = s.trace := rfl
@[simp] theorem State.readMemory_draws (s : State) : s.readMemory.draws = s.draws := rfl
@[simp] theorem State.readMemory_pins (s : State) :
    s.readMemory.pins = { s.pins with data := s.memRead .cpu s.pins.addr } := rfl

@[simp] theorem State.writeMemory_cpu (s : State) : s.writeMemory.cpu = s.cpu := by simp [State.writeMemory]
@[simp] theorem State.writeMemory_ioc1 (s : State) : s.writeMemory.ioc1 = s.ioc1 := by simp [State.writeMemory]
@[simp] theorem State.writeMemory_ioc2 (s : State) : s.writeMemory.ioc2 = s.ioc2 := by simp [State.writeMemory]
@[simp] theorem State.writeMemory_vic (s : State) : s.writeMemory.vic = s.vic := by simp [State.writeMemory]
@[simp] theorem State.writeMemory_pins (s : State) : s.writeMemory.pins = s.pins := by simp [State.writeMemory]
@[simp] theorem State.writeMemory_cartLen (s : State) : s.writeMemory.cartLen = s.cartLen := by simp [State.writeMemory]
@[simp] theorem State.writeMemory_regionsCpu (s : State) : s.writeMemory.regionsCpu = s.regionsCpu := by simp [State.writeMemory]
@[simp] theorem State.writeMemory_regionsVid (s : State) : s.writeMemory.regionsVid = s.regionsVid := by simp [State.writeMemory]
@[simp] theorem State.writeMemory_kbd (s : State) : s.writeMemory.kbd = s.kbd := by simp [State.writeMemory]
@[simp] theorem State.writeMemory_cols (s : State) : s.writeMemory.cols = s.cols := by simp [State.writeMemory]
@[simp] theorem State.writeMemory_audio (s : State) : s.writeMemory.audio = s.audio := by simp [State.writeMemory]
@[simp] theorem State.writeMemory_valid (s : State) : s.writeMemory.valid = s.valid := by simp [State.writeMemory]
@[simp] theorem State.writeMemory_refused (s : State) : s.writeMemory.refused = s.refused := by simp [State.writeMemory]
@[simp] theorem State.writeMemory_configPhase (s : State) : s.writeMemory.configPhase = s.configPhase := by simp [State.writeMemory]
@[simp] theorem State.writeMemory_params (s : State) : s.writeMemory.params = s.params := by simp [State.writeMemory]
@[simp] theorem State.writeMemory_inbox (s : State) : s.writeMemory.inbox = s.inbox := by simp [State.writeMemory]
@[simp] theorem State.writeMemory_result (s : State) : s.writeMemory.result = s.result := by simp [State.writeMemory]
@[simp] theorem State.writeMemory_trace (s : State) : s.writeMemory.trace = s.trace := by simp [State.writeMemory]
@[simp] theorem State.writeMemory_draws (s : State) : s.writeMemory.draws = s.draws := by simp [State.writeMemory]

@[simp] theorem State.transaction_cpu (s : State) : s.transaction.cpu = s.cpu := by
  unfold State.transaction; split <;> simp
@[simp] theorem State.transaction_ioc1 (s : State) : s.transaction.ioc1 = s.ioc1 := by
  unfold State.transaction; split <;> simp
@[simp] theorem State.transaction_ioc2 (s : State) : s.transaction.ioc2 = s.ioc2 := by
  unfold State.transaction; split <;> simp
@[simp] theorem State.transaction_vic (s : State) : s.transaction.vic = s.vic := by
  unfold State.transaction; split <;> simp
@[simp] theorem State.transaction_cartLen (s : State) : s.transaction.cartLen = s.cartLen := by
  unfold State.transaction; split <;> simp
@[simp] theorem State.transaction_regionsCpu (s : State) : s.transaction.regionsCpu = s.regionsCpu := by
  unfold State.transaction; split <;> simp
@[simp] theorem State.transaction_regionsVid (s : State) : s.transaction.regionsVid = s.regionsVid := by
  unfold State.transaction; split <;> simp
@[simp] theorem State.transaction_kbd (s : State) : s.transaction.kbd = s.kbd := by
  unfold State.transaction; split <;> simp
@[simp] theorem State.transaction_cols (s : State) : s.transaction.cols = s.cols := by
  unfold State.transaction; split <;> simp
@[simp] theorem State.transaction_audio (s : State) : s.transaction.audio = s.audio := by
  unfold State.transaction; split <;> simp
@[simp] theorem State.transaction_valid (s : State) : s.transaction.valid = s.valid := by
  unfold State.transaction; split <;> simp
@[simp] theorem State.transaction_refused (s : State) : s.transaction.refused = s.refused := by
  unfold State.transaction; split <;> simp
@[simp] theorem State.transaction_configPhase (s : State) : s.transaction.configPhase = s.configPhase := by
  unfold State.transaction; split <;> simp
@[simp] theorem State.transaction_params (s : State) : s.transaction.params = s.params := by
  unfold State.transaction; split <;> simp
@[simp] theorem State.transaction_inbox (s : State) : s.transaction.inbox = s.inbox := by
  unfold State.transaction; split <;> simp
@[simp] theorem State.transaction_result (s : State) : s.transaction.result = s.result := by
  unfold State.transaction; split <;> simp
@[simp] theorem State.transaction_trace (s : State) : s.transaction.trace = s.trace := by
  unfold State.transaction; split <;> simp

/-- The transaction keeps the address and the direction (R84: every later step uses the one address). -/
@[simp] theorem State.transaction_addr (s : State) : s.transaction.pins.addr = s.pins.addr := by
  unfold State.transaction; split <;> simp

@[simp] theorem State.transaction_rw (s : State) : s.transaction.pins.rw = s.pins.rw := by
  unfold State.transaction; split <;> simp

/-- The memory after step 2: a write outside the window goes to the map, anything else leaves it (R89, R90). -/
theorem State.transaction_mem (s : State) :
    s.transaction.mem =
      if ioWindow s.pins.addr = false ∧ s.pins.rw = .wr then (s.memWrite .cpu s.pins.addr s.pins.data).mem else s.mem := by
  unfold State.transaction; split <;> simp_all [State.writeMemory]

/-! ### Steps 3 to 6 -/

@[simp] theorem State.ioc1Step_cpu (ch : Chips) (cs : Bool) (s : State) : (s.ioc1Step ch cs).cpu = s.cpu := rfl
@[simp] theorem State.ioc1Step_ioc2 (ch : Chips) (cs : Bool) (s : State) : (s.ioc1Step ch cs).ioc2 = s.ioc2 := rfl
@[simp] theorem State.ioc1Step_vic (ch : Chips) (cs : Bool) (s : State) : (s.ioc1Step ch cs).vic = s.vic := rfl
@[simp] theorem State.ioc1Step_mem (ch : Chips) (cs : Bool) (s : State) : (s.ioc1Step ch cs).mem = s.mem := rfl
@[simp] theorem State.ioc1Step_cartLen (ch : Chips) (cs : Bool) (s : State) : (s.ioc1Step ch cs).cartLen = s.cartLen := rfl
@[simp] theorem State.ioc1Step_regionsCpu (ch : Chips) (cs : Bool) (s : State) : (s.ioc1Step ch cs).regionsCpu = s.regionsCpu := rfl
@[simp] theorem State.ioc1Step_regionsVid (ch : Chips) (cs : Bool) (s : State) : (s.ioc1Step ch cs).regionsVid = s.regionsVid := rfl
@[simp] theorem State.ioc1Step_kbd (ch : Chips) (cs : Bool) (s : State) : (s.ioc1Step ch cs).kbd = s.kbd := rfl
@[simp] theorem State.ioc1Step_cols (ch : Chips) (cs : Bool) (s : State) : (s.ioc1Step ch cs).cols = s.cols := rfl
@[simp] theorem State.ioc1Step_audio (ch : Chips) (cs : Bool) (s : State) : (s.ioc1Step ch cs).audio = s.audio := rfl
@[simp] theorem State.ioc1Step_valid (ch : Chips) (cs : Bool) (s : State) : (s.ioc1Step ch cs).valid = s.valid := rfl
@[simp] theorem State.ioc1Step_refused (ch : Chips) (cs : Bool) (s : State) : (s.ioc1Step ch cs).refused = s.refused := rfl
@[simp] theorem State.ioc1Step_configPhase (ch : Chips) (cs : Bool) (s : State) : (s.ioc1Step ch cs).configPhase = s.configPhase := rfl
@[simp] theorem State.ioc1Step_params (ch : Chips) (cs : Bool) (s : State) : (s.ioc1Step ch cs).params = s.params := rfl
@[simp] theorem State.ioc1Step_inbox (ch : Chips) (cs : Bool) (s : State) : (s.ioc1Step ch cs).inbox = s.inbox := rfl
@[simp] theorem State.ioc1Step_result (ch : Chips) (cs : Bool) (s : State) : (s.ioc1Step ch cs).result = s.result := rfl
@[simp] theorem State.ioc1Step_trace (ch : Chips) (cs : Bool) (s : State) : (s.ioc1Step ch cs).trace = s.trace := rfl
@[simp] theorem State.ioc1Step_draws (ch : Chips) (cs : Bool) (s : State) : (s.ioc1Step ch cs).draws = s.draws := rfl

@[simp] theorem State.ioc2Step_cpu (ch : Chips) (cs : Bool) (s : State) : (s.ioc2Step ch cs).cpu = s.cpu := rfl
@[simp] theorem State.ioc2Step_ioc1 (ch : Chips) (cs : Bool) (s : State) : (s.ioc2Step ch cs).ioc1 = s.ioc1 := rfl
@[simp] theorem State.ioc2Step_vic (ch : Chips) (cs : Bool) (s : State) : (s.ioc2Step ch cs).vic = s.vic := rfl
@[simp] theorem State.ioc2Step_mem (ch : Chips) (cs : Bool) (s : State) : (s.ioc2Step ch cs).mem = s.mem := rfl
@[simp] theorem State.ioc2Step_cartLen (ch : Chips) (cs : Bool) (s : State) : (s.ioc2Step ch cs).cartLen = s.cartLen := rfl
@[simp] theorem State.ioc2Step_regionsCpu (ch : Chips) (cs : Bool) (s : State) : (s.ioc2Step ch cs).regionsCpu = s.regionsCpu := rfl
@[simp] theorem State.ioc2Step_regionsVid (ch : Chips) (cs : Bool) (s : State) : (s.ioc2Step ch cs).regionsVid = s.regionsVid := rfl
@[simp] theorem State.ioc2Step_kbd (ch : Chips) (cs : Bool) (s : State) : (s.ioc2Step ch cs).kbd = s.kbd := rfl
@[simp] theorem State.ioc2Step_audio (ch : Chips) (cs : Bool) (s : State) : (s.ioc2Step ch cs).audio = s.audio := rfl
@[simp] theorem State.ioc2Step_valid (ch : Chips) (cs : Bool) (s : State) : (s.ioc2Step ch cs).valid = s.valid := rfl
@[simp] theorem State.ioc2Step_refused (ch : Chips) (cs : Bool) (s : State) : (s.ioc2Step ch cs).refused = s.refused := rfl
@[simp] theorem State.ioc2Step_configPhase (ch : Chips) (cs : Bool) (s : State) : (s.ioc2Step ch cs).configPhase = s.configPhase := rfl
@[simp] theorem State.ioc2Step_params (ch : Chips) (cs : Bool) (s : State) : (s.ioc2Step ch cs).params = s.params := rfl
@[simp] theorem State.ioc2Step_inbox (ch : Chips) (cs : Bool) (s : State) : (s.ioc2Step ch cs).inbox = s.inbox := rfl
@[simp] theorem State.ioc2Step_result (ch : Chips) (cs : Bool) (s : State) : (s.ioc2Step ch cs).result = s.result := rfl
@[simp] theorem State.ioc2Step_trace (ch : Chips) (cs : Bool) (s : State) : (s.ioc2Step ch cs).trace = s.trace := rfl
@[simp] theorem State.ioc2Step_draws (ch : Chips) (cs : Bool) (s : State) : (s.ioc2Step ch cs).draws = s.draws := rfl

@[simp] theorem State.vicStep_cpu (ch : Chips) (cs : Bool) (s : State) : (s.vicStep ch cs).cpu = s.cpu := by
  simp [State.vicStep]
@[simp] theorem State.vicStep_ioc1 (ch : Chips) (cs : Bool) (s : State) : (s.vicStep ch cs).ioc1 = s.ioc1 := by
  simp [State.vicStep]
@[simp] theorem State.vicStep_ioc2 (ch : Chips) (cs : Bool) (s : State) : (s.vicStep ch cs).ioc2 = s.ioc2 := by
  simp [State.vicStep]
@[simp] theorem State.vicStep_mem (ch : Chips) (cs : Bool) (s : State) : (s.vicStep ch cs).mem = s.mem := by
  simp [State.vicStep]
@[simp] theorem State.vicStep_cartLen (ch : Chips) (cs : Bool) (s : State) : (s.vicStep ch cs).cartLen = s.cartLen := by
  simp [State.vicStep]
@[simp] theorem State.vicStep_regionsCpu (ch : Chips) (cs : Bool) (s : State) : (s.vicStep ch cs).regionsCpu = s.regionsCpu := by
  simp [State.vicStep]
@[simp] theorem State.vicStep_regionsVid (ch : Chips) (cs : Bool) (s : State) : (s.vicStep ch cs).regionsVid = s.regionsVid := by
  simp [State.vicStep]
@[simp] theorem State.vicStep_kbd (ch : Chips) (cs : Bool) (s : State) : (s.vicStep ch cs).kbd = s.kbd := by
  simp [State.vicStep]
@[simp] theorem State.vicStep_cols (ch : Chips) (cs : Bool) (s : State) : (s.vicStep ch cs).cols = s.cols := by
  simp [State.vicStep]
@[simp] theorem State.vicStep_valid (ch : Chips) (cs : Bool) (s : State) : (s.vicStep ch cs).valid = s.valid := by
  simp [State.vicStep]
@[simp] theorem State.vicStep_refused (ch : Chips) (cs : Bool) (s : State) : (s.vicStep ch cs).refused = s.refused := by
  simp [State.vicStep]
@[simp] theorem State.vicStep_configPhase (ch : Chips) (cs : Bool) (s : State) : (s.vicStep ch cs).configPhase = s.configPhase := by
  simp [State.vicStep]
@[simp] theorem State.vicStep_params (ch : Chips) (cs : Bool) (s : State) : (s.vicStep ch cs).params = s.params := by
  simp [State.vicStep]
@[simp] theorem State.vicStep_inbox (ch : Chips) (cs : Bool) (s : State) : (s.vicStep ch cs).inbox = s.inbox := by
  simp [State.vicStep]
@[simp] theorem State.vicStep_result (ch : Chips) (cs : Bool) (s : State) : (s.vicStep ch cs).result = s.result := by
  simp [State.vicStep]

@[simp] theorem State.chipSteps_cpu (ch : Chips) (c1 c2 cv : Bool) (s : State) : (s.chipSteps ch c1 c2 cv).cpu = s.cpu := by
  simp [State.chipSteps]
@[simp] theorem State.chipSteps_mem (ch : Chips) (c1 c2 cv : Bool) (s : State) : (s.chipSteps ch c1 c2 cv).mem = s.mem := by
  simp [State.chipSteps]
@[simp] theorem State.chipSteps_cartLen (ch : Chips) (c1 c2 cv : Bool) (s : State) : (s.chipSteps ch c1 c2 cv).cartLen = s.cartLen := by
  simp [State.chipSteps]
@[simp] theorem State.chipSteps_regionsCpu (ch : Chips) (c1 c2 cv : Bool) (s : State) : (s.chipSteps ch c1 c2 cv).regionsCpu = s.regionsCpu := by
  simp [State.chipSteps]
@[simp] theorem State.chipSteps_regionsVid (ch : Chips) (c1 c2 cv : Bool) (s : State) : (s.chipSteps ch c1 c2 cv).regionsVid = s.regionsVid := by
  simp [State.chipSteps]
@[simp] theorem State.chipSteps_kbd (ch : Chips) (c1 c2 cv : Bool) (s : State) : (s.chipSteps ch c1 c2 cv).kbd = s.kbd := by
  simp [State.chipSteps]
@[simp] theorem State.chipSteps_valid (ch : Chips) (c1 c2 cv : Bool) (s : State) : (s.chipSteps ch c1 c2 cv).valid = s.valid := by
  simp [State.chipSteps]
@[simp] theorem State.chipSteps_refused (ch : Chips) (c1 c2 cv : Bool) (s : State) : (s.chipSteps ch c1 c2 cv).refused = s.refused := by
  simp [State.chipSteps]
@[simp] theorem State.chipSteps_configPhase (ch : Chips) (c1 c2 cv : Bool) (s : State) : (s.chipSteps ch c1 c2 cv).configPhase = s.configPhase := by
  simp [State.chipSteps]
@[simp] theorem State.chipSteps_params (ch : Chips) (c1 c2 cv : Bool) (s : State) : (s.chipSteps ch c1 c2 cv).params = s.params := by
  simp [State.chipSteps]
@[simp] theorem State.chipSteps_inbox (ch : Chips) (c1 c2 cv : Bool) (s : State) : (s.chipSteps ch c1 c2 cv).inbox = s.inbox := by
  simp [State.chipSteps]
@[simp] theorem State.chipSteps_result (ch : Chips) (c1 c2 cv : Bool) (s : State) : (s.chipSteps ch c1 c2 cv).result = s.result := by
  simp [State.chipSteps]

@[simp] theorem State.chipSteps_draws (ch : Chips) (c1 c2 cv : Bool) (s : State) :
    (s.chipSteps ch c1 c2 cv).draws = s.draws + 1 := by
  simp [State.chipSteps, State.vicStep]

@[simp] theorem State.chipSteps_length (ch : Chips) (c1 c2 cv : Bool) (s : State) :
    (s.chipSteps ch c1 c2 cv).audio.buf.length = s.audio.buf.length := by
  simp [State.chipSteps, State.vicStep]

/-- The fields the transaction and the earlier steps do not touch reach the end of the chip steps (R81). -/
theorem State.chipSteps_addr (ch : Chips) (c1 c2 cv : Bool) (s : State) :
    (s.chipSteps ch c1 c2 cv).pins.addr = s.pins.addr := by
  simp [State.chipSteps, State.vicStep, State.ioc2Step, State.ioc1Step, Pins.routeIrq, Pins.routeNmi]

theorem State.chipSteps_rw (ch : Chips) (c1 c2 cv : Bool) (s : State) :
    (s.chipSteps ch c1 c2 cv).pins.rw = s.pins.rw := by
  simp [State.chipSteps, State.vicStep, State.ioc2Step, State.ioc1Step, Pins.routeIrq, Pins.routeNmi]

theorem State.chipSteps_other (ch : Chips) (c1 c2 cv : Bool) (s : State) :
    (s.chipSteps ch c1 c2 cv).pins.other = s.pins.other := by
  simp [State.chipSteps, State.vicStep, State.ioc2Step, State.ioc1Step, Pins.routeIrq, Pins.routeNmi]

/-- IOC1's interrupt output on the NMI line (R94). -/
theorem State.chipSteps_nmi (ch : Chips) (c1 c2 cv : Bool) (s : State) :
    (s.chipSteps ch c1 c2 cv).pins.nmi = (s.pins.nmi || (ch.ioc1Tick s.ioc1 (s.pins1 c1)).2.irqOut) := by
  simp [State.chipSteps, State.vicStep, State.ioc2Step, State.ioc1Step, Pins.routeIrq, Pins.routeNmi]

/-- IOC2's interrupt output on the IRQ line (R98). -/
theorem State.chipSteps_irq (ch : Chips) (c1 c2 cv : Bool) (s : State) :
    (s.chipSteps ch c1 c2 cv).pins.irq =
      (s.pins.irq || (ch.ioc2Tick s.ioc2 ((s.ioc1Step ch c1).pins2 c2)).2.irqOut) := by
  simp [State.chipSteps, State.vicStep, State.ioc2Step, State.ioc1Step, Pins.routeIrq, Pins.routeNmi]

/-- The sub-states after the chip steps: each chip ticked once (R91). -/
theorem State.chipSteps_ioc1 (ch : Chips) (c1 c2 cv : Bool) (s : State) :
    (s.chipSteps ch c1 c2 cv).ioc1 = (ch.ioc1Tick s.ioc1 (s.pins1 c1)).1 := by
  simp [State.chipSteps, State.ioc1Step]

theorem State.chipSteps_ioc2 (ch : Chips) (c1 c2 cv : Bool) (s : State) :
    (s.chipSteps ch c1 c2 cv).ioc2 = (ch.ioc2Tick s.ioc2 ((s.ioc1Step ch c1).pins2 c2)).1 := by
  simp [State.chipSteps, State.ioc2Step]

/-- The column latch after the chip steps (R97). -/
theorem State.chipSteps_cols (ch : Chips) (c1 c2 cv : Bool) (s : State) :
    (s.chipSteps ch c1 c2 cv).cols = ~~~ (ch.ioc2Tick s.ioc2 ((s.ioc1Step ch c1).pins2 c2)).2.colOut := by
  simp [State.chipSteps, State.ioc2Step]

/-- With no chip selected, the data bus keeps what step 2 put on it (R89, R100). -/
theorem State.chipSteps_data_unselected (ch : Chips) (s : State) :
    (s.chipSteps ch false false false).pins.data = s.pins.data := by
  simp [State.chipSteps, State.vicStep, State.ioc2Step, State.ioc1Step, Pins.routeIrq, Pins.routeNmi, muxData]

/-- On a write no chip drives the data bus (R101). -/
theorem State.chipSteps_data_write (ch : Chips) (c1 c2 cv : Bool) {s : State} (h : s.pins.rw = .wr) :
    (s.chipSteps ch c1 c2 cv).pins.data = s.pins.data := by
  simp [State.chipSteps, State.vicStep, State.ioc2Step, State.ioc1Step, Pins.routeIrq, Pins.routeNmi, muxData, h]

/-! ### The whole tick -/

@[simp] theorem State.tick_cartLen (ch : Chips) (s : State) : (s.tick ch).cartLen = s.cartLen := by
  simp [State.tick, State.cycle]
@[simp] theorem State.tick_regionsCpu (ch : Chips) (s : State) : (s.tick ch).regionsCpu = s.regionsCpu := by
  simp [State.tick, State.cycle]
@[simp] theorem State.tick_regionsVid (ch : Chips) (s : State) : (s.tick ch).regionsVid = s.regionsVid := by
  simp [State.tick, State.cycle]
@[simp] theorem State.tick_kbd (ch : Chips) (s : State) : (s.tick ch).kbd = s.kbd := by
  simp [State.tick, State.cycle]
@[simp] theorem State.tick_valid (ch : Chips) (s : State) : (s.tick ch).valid = s.valid := by
  simp [State.tick, State.cycle]
@[simp] theorem State.tick_refused (ch : Chips) (s : State) : (s.tick ch).refused = s.refused := by
  simp [State.tick, State.cycle]
@[simp] theorem State.tick_configPhase (ch : Chips) (s : State) : (s.tick ch).configPhase = s.configPhase := by
  simp [State.tick, State.cycle]
@[simp] theorem State.tick_params (ch : Chips) (s : State) : (s.tick ch).params = s.params := by
  simp [State.tick, State.cycle]
@[simp] theorem State.tick_inbox (ch : Chips) (s : State) : (s.tick ch).inbox = s.inbox := by
  simp [State.tick, State.cycle]
@[simp] theorem State.tick_result (ch : Chips) (s : State) : (s.tick ch).result = s.result := by
  simp [State.tick, State.cycle]

@[simp] theorem State.watchedTick_cartLen (ch : Chips) (s : State) : (s.watchedTick ch).cartLen = s.cartLen := by
  simp [State.watchedTick]
@[simp] theorem State.watchedTick_regionsCpu (ch : Chips) (s : State) : (s.watchedTick ch).regionsCpu = s.regionsCpu := by
  simp [State.watchedTick]
@[simp] theorem State.watchedTick_regionsVid (ch : Chips) (s : State) : (s.watchedTick ch).regionsVid = s.regionsVid := by
  simp [State.watchedTick]
@[simp] theorem State.watchedTick_kbd (ch : Chips) (s : State) : (s.watchedTick ch).kbd = s.kbd := by
  simp [State.watchedTick]
@[simp] theorem State.watchedTick_valid (ch : Chips) (s : State) : (s.watchedTick ch).valid = s.valid := by
  simp [State.watchedTick]
@[simp] theorem State.watchedTick_refused (ch : Chips) (s : State) : (s.watchedTick ch).refused = s.refused := by
  simp [State.watchedTick]
@[simp] theorem State.watchedTick_configPhase (ch : Chips) (s : State) : (s.watchedTick ch).configPhase = s.configPhase := by
  simp [State.watchedTick]
@[simp] theorem State.watchedTick_params (ch : Chips) (s : State) : (s.watchedTick ch).params = s.params := by
  simp [State.watchedTick]
@[simp] theorem State.watchedTick_inbox (ch : Chips) (s : State) : (s.watchedTick ch).inbox = s.inbox := by
  simp [State.watchedTick]
@[simp] theorem State.watchedTick_result (ch : Chips) (s : State) : (s.watchedTick ch).result = s.result := by
  simp [State.watchedTick]

/-- What every tick keeps, every run of EXEC's loop keeps (R165, R166). -/
theorem State.execLoop_keeps {P : State → Prop} (ch : Chips) (ht : ∀ s, P s → P (s.tick ch))
    (hw : ∀ s, P s → P (s.watchedTick ch)) (mode : ExecMode) (n : Nat) (s : State) (h : P s) :
    P (s.execLoop ch mode n).1 := by
  cases mode with
  | freeRun =>
    show P (s.ticks ch n)
    induction n generalizing s with
    | zero => exact h
    | succ n ih => exact ih _ (ht s h)
  | instrumented =>
    show P (s.watchedTicks ch n).1
    induction n generalizing s with
    | zero => exact h
    | succ n ih =>
      simp only [State.watchedTicks]
      split
      · exact hw s h
      · exact ih _ (hw s h)

end Sys2Proof.Machine
end

