-- ==== Sys2Proof/Laws/Invariant.lean ====
section
/-! SUPPORT. What keeps the block's invariant: one lemma per shared operation. -/

namespace Sys2Proof.Machine

/-- The invariant speaks of these fields only. -/
theorem State.Inv.of_eq {s t : State} (h : s.Inv) (hm : t.mem = s.mem) (hc : t.cartLen = s.cartLen)
    (h1 : t.regionsCpu = s.regionsCpu) (h2 : t.regionsVid = s.regionsVid) (hk : t.kbd = s.kbd) (hp : t.params = s.params)
    (ha : t.audio = s.audio) : t.Inv :=
  { memCanonical := hm ▸ h.memCanonical
    memInside := by rw [hm, hp]; exact h.memInside
    cartFits := hc ▸ h.cartFits
    cpuTable := by rw [h1, hp]; exact h.cpuTable
    vidTable := by rw [h2, hp]; exact h.vidTable
    keymapSorted := hk ▸ h.keymapSorted
    pendYoung := by rw [hk, hp]; exact h.pendYoung
    audioBounded := hp ▸ h.audioBounded
    audioLength := by rw [ha, hp]; exact h.audioLength
    audioInside := by rw [ha, hp]; exact h.audioInside }

/-- The cell a region of a table reaches lies in a fitted bank (R24, R39). -/
theorem RegionOk.key_inBank {fitted : Vector Bool 4} {r : Region} {a : Addr} (hr : RegionOk fitted r)
    (ha : r.covers a = true) : KeyInBank fitted (r.key a) := by
  have hlt : r.index a < r.bank.size cartMax := by
    have := hr.2.2.2
    simp only [Region.covers, Bool.and_eq_true, decide_eq_true_eq] at ha
    unfold Region.index
    omega
  exact ⟨r.bank, r.index a, hr.2.2.1, hlt, rfl⟩

theorem State.Inv.table {s : State} (h : s.Inv) (sp : Space) : TableOk s.params.expPresent (s.regions sp) := by
  cases sp
  · exact h.cpuTable
  · exact h.vidTable

/-- A write reaches only cells of fitted banks. -/
theorem State.Inv.writeKey_inBank {s : State} (h : s.Inv) {sp : Space} {a : Addr} {k : Nat} (hk : s.writeKey sp a = some k) :
    KeyInBank s.params.expPresent k := by
  unfold State.writeKey at hk
  split at hk
  · next r hr =>
    have ⟨hmem, hcov⟩ := effectiveIn_spec hr
    split at hk
    · cases hk; exact ((h.table sp).1 r hmem).key_inBank hcov
    · cases hk
  · cases hk

theorem State.Inv.memWrite {s : State} (h : s.Inv) (sp : Space) (a : Addr) (v : Byte) : (s.memWrite sp a v).Inv where
  memCanonical := State.memWrite_wf sp a v h.memCanonical
  memInside := by
    intro c hc
    rw [State.memWrite_mem] at hc
    rw [State.memWrite_params]
    split at hc
    · next k hk =>
      rcases Memory.mem_write hc with e | hc
      · exact e ▸ h.writeKey_inBank hk
      · exact h.memInside c hc
    · exact h.memInside c hc
  cartFits := by simpa using h.cartFits
  cpuTable := by simpa using h.cpuTable
  vidTable := by simpa using h.vidTable
  keymapSorted := by simpa using h.keymapSorted
  pendYoung := by simpa using h.pendYoung
  audioBounded := by simpa using h.audioBounded
  audioLength := by simpa using h.audioLength
  audioInside := by simpa using h.audioInside

theorem State.Inv.loadBytes {s : State} (h : s.Inv) (a : Addr) (bs : List Byte) : (s.loadBytes a bs).Inv := by
  induction bs generalizing a s with
  | nil => exact h
  | cons b bs ih => exact ih (h.memWrite .cpu a b) (a + 1)

theorem State.Inv.audioPush {s : State} (h : s.Inv) (x : Sample) : (s.audioPush x).Inv where
  memCanonical := by simpa using h.memCanonical
  memInside := by simpa using h.memInside
  cartFits := by simpa using h.cartFits
  cpuTable := by simpa using h.cpuTable
  vidTable := by simpa using h.vidTable
  keymapSorted := by simpa using h.keymapSorted
  pendYoung := by simpa using h.pendYoung
  audioBounded := by simpa using h.audioBounded
  audioLength := by simpa using h.audioLength
  audioInside := by
    rw [State.audioPush_params]
    have := h.audioInside
    unfold State.audioPush
    split
    · exact h.audioBounded.1
    · simp only; omega

theorem State.Inv.audioStep {s : State} (h : s.Inv) (q : VicOut) : (s.audioStep q).Inv := by
  unfold State.audioStep
  split
  · exact h.audioPush _
  · exact h

theorem State.Inv.chipSteps {s : State} (h : s.Inv) (ch : Chips) (c1 c2 cv : Bool) : (s.chipSteps ch c1 c2 cv).Inv := by
  unfold State.chipSteps State.vicStep
  refine State.Inv.audioStep ?_ _
  exact h.of_eq rfl rfl rfl rfl rfl rfl rfl

theorem State.Inv.transaction {s : State} (h : s.Inv) : s.transaction.Inv := by
  unfold State.transaction
  split
  · exact h.of_eq rfl rfl rfl rfl rfl rfl rfl
  · exact h
  · exact h.of_eq rfl rfl rfl rfl rfl rfl rfl
  · exact h.memWrite _ _ _

theorem State.Inv.cycle {s : State} (h : s.Inv) (ch : Chips) : (s.cycle ch).Inv := by
  have hc : s.clearLines.Inv := h.of_eq rfl rfl rfl rfl rfl rfl rfl
  exact hc.transaction.chipSteps ch _ _ _

theorem State.Inv.tick {s : State} (h : s.Inv) (ch : Chips) : (s.tick ch).Inv := by
  have hc : (s.cpuStep ch).Inv := h.of_eq rfl rfl rfl rfl rfl rfl rfl
  exact hc.cycle ch

theorem State.Inv.watchedTick {s : State} (h : s.Inv) (ch : Chips) : (s.watchedTick ch).Inv :=
  (h.tick ch).of_eq rfl rfl rfl rfl rfl rfl rfl

theorem State.Inv.execLoop {s : State} (h : s.Inv) (ch : Chips) (mode : ExecMode) (n : Nat) : (s.execLoop ch mode n).1.Inv :=
  State.execLoop_keeps ch (fun _ h => h.tick ch) (fun _ h => h.watchedTick ch) mode n s h

/-- Another keyboard that keeps the keymap sorted and its pending cells young. -/
theorem State.Inv.setKbd {s : State} (h : s.Inv) {k : Keyboard} (hs : AssocSorted k.keymap)
    (hy : ∀ x, (k.cell x).pend = true → (k.cell x).age < s.params.kbdHoldUs) : (s.setKbd k).Inv where
  memCanonical := h.memCanonical
  memInside := h.memInside
  cartFits := h.cartFits
  cpuTable := h.cpuTable
  vidTable := h.vidTable
  keymapSorted := hs
  pendYoung := hy
  audioBounded := h.audioBounded
  audioLength := h.audioLength
  audioInside := h.audioInside

theorem Keyboard.keyDown_young {hold : Nat} (code : Byte) {k : Keyboard}
    (h : ∀ x, (k.cell x).pend = true → (k.cell x).age < hold) :
    ∀ x, ((k.keyDown code).cell x).pend = true → ((k.keyDown code).cell x).age < hold := by
  unfold Keyboard.keyDown
  split
  · refine Keyboard.onKey_forall (P := fun c => c.pend = true → c.age < hold) Keyboard.press ?_ _ _ h
    intro k x hk y
    rw [Keyboard.press, Keyboard.cell_setCell]
    split
    · intro hc; cases hc
    · exact hk y
  · exact h

theorem Keyboard.keyUp_young {hold : Nat} (code : Byte) {k : Keyboard}
    (h : ∀ x, (k.cell x).pend = true → (k.cell x).age < hold) :
    ∀ x, ((k.keyUp hold code).cell x).pend = true → ((k.keyUp hold code).cell x).age < hold := by
  unfold Keyboard.keyUp
  split
  · refine Keyboard.onKey_forall (P := fun c => c.pend = true → c.age < hold) (Keyboard.release hold) ?_ _ _ h
    intro k x hk y
    rw [Keyboard.release, Keyboard.cell_setCell]
    split
    · unfold KeyCell.release
      split
      · intro hc; cases hc
      · intro _; simp only; omega
    · exact hk y
  · exact h

theorem Keyboard.advance_young {hold : Nat} (u : Nat) {k : Keyboard}
    (h : ∀ x, (k.cell x).pend = true → (k.cell x).age < hold) :
    ∀ x, ((k.advance hold u).cell x).pend = true → ((k.advance hold u).cell x).age < hold := by
  intro x
  rw [Keyboard.cell_advance]
  unfold KeyCell.advance
  split
  · split
    · intro hc; cases hc
    · next hn =>
      intro hc
      change (k.cell x).pend = true at hc
      rw [hc, Bool.true_and, decide_eq_true_eq] at hn
      exact Nat.lt_of_not_le hn
  · exact h x

theorem State.Inv.kbdAdvance {s : State} (h : s.Inv) (u : Nat) : (s.kbdAdvance u).Inv :=
  h.setKbd h.keymapSorted (Keyboard.advance_young u h.pendYoung)

/-- An admitted region extends a table (R38). -/
theorem TableOk.append {fitted : Vector Bool 4} {rs : List Region} {r : Region} (h : TableOk fitted rs) (hr : RegionOk fitted r)
    (hc : clashes rs r = false) : TableOk fitted (rs ++ [r]) := by
  refine ⟨fun q hq => ?_, List.pairwise_append.mpr ⟨h.2, List.pairwise_singleton _ _, fun q hq r' hr' => ?_⟩⟩
  · rcases List.mem_append.mp hq with hq | hq
    · exact h.1 q hq
    · exact List.mem_singleton.mp hq ▸ hr
  · cases List.mem_singleton.mp hr'
    have := List.any_eq_false.mp hc q hq
    simpa using this

theorem TableOk.filter {fitted : Vector Bool 4} {rs : List Region} (p : Region → Bool) (h : TableOk fitted rs) :
    TableOk fitted (rs.filter p) :=
  ⟨fun q hq => h.1 q (List.mem_of_mem_filter hq), h.2.filter p⟩

/-- A bank's size never passes its largest. -/
theorem Bank.size_le {n : Nat} (b : Bank) (h : n ≤ cartMax) : b.size n ≤ b.size cartMax := by
  cases b <;> simp [Bank.size, h]

theorem State.Inv.addRegion {s : State} (h : s.Inv) {sp : Space} {r : Region} (ha : s.admits sp r = true) :
    (s.addRegion sp r).Inv := by
  simp only [State.admits, State.regionFits, Bool.and_eq_true, decide_eq_true_eq, Bool.not_eq_true'] at ha
  obtain ⟨⟨⟨⟨h1, h2⟩, h3⟩, h4⟩, h5⟩ := ha
  have hr : RegionOk s.params.expPresent r := ⟨h1, h2, h3, Nat.le_trans h4 (Bank.size_le r.bank h.cartFits)⟩
  cases sp
  · exact { memCanonical := h.memCanonical, memInside := h.memInside, cartFits := h.cartFits,
            cpuTable := TableOk.append h.cpuTable hr h5, vidTable := h.vidTable, keymapSorted := h.keymapSorted,
            pendYoung := h.pendYoung, audioBounded := h.audioBounded, audioLength := h.audioLength, audioInside := h.audioInside }
  · exact { memCanonical := h.memCanonical, memInside := h.memInside, cartFits := h.cartFits,
            cpuTable := h.cpuTable, vidTable := TableOk.append h.vidTable hr h5, keymapSorted := h.keymapSorted,
            pendYoung := h.pendYoung, audioBounded := h.audioBounded, audioLength := h.audioLength, audioInside := h.audioInside }

theorem State.Inv.mapRegion {s : State} (h : s.Inv) (sp : Space) (r : Region) : (s.mapRegion sp r).Inv := by
  unfold State.mapRegion
  split
  · next ha => exact (h.addRegion ha).of_eq rfl rfl rfl rfl rfl rfl rfl
  · exact h.of_eq rfl rfl rfl rfl rfl rfl rfl

theorem State.Inv.cartInsert {s : State} (h : s.Inv) (p : List Byte) : (s.cartInsert p).Inv := by
  unfold State.cartInsert
  split
  · exact h.of_eq rfl rfl rfl rfl rfl rfl rfl
  · next hn =>
    split
    · exact h.of_eq rfl rfl rfl rfl rfl rfl rfl
    · next hc =>
      have hlen : 1 ≤ p.length ∧ p.length ≤ cartMax := by omega
      simp only [State.cartClash, Bool.or_eq_true, not_or, Bool.not_eq_true] at hc
      have hl : (s.loadCart p).Inv :=
        { memCanonical := Memory.writeRun_wf _ p (Memory.dropBank_wf .cart h.memCanonical)
          memInside := by
            intro c hcm
            rcases Memory.mem_writeRun hcm with ⟨h1, h2⟩ | hcm
            · refine ⟨.cart, c.1 - cellKey .cart 0, rfl, ?_, ?_⟩
              · simp only [Bank.size]; omega
              · simp only [cellKey] at h1 ⊢; omega
            · exact h.memInside c (List.mem_of_mem_filter hcm)
          cartFits := hlen.2
          cpuTable := by
            refine TableOk.append (TableOk.filter _ h.cpuTable) ⟨hlen.1, ?_, rfl, ?_⟩ hc.2
            · have := hlen.2
              simp only [cartRegion, cartBase, cartMax] at *
              show 0xA000 + p.length ≤ 0x10000
              omega
            · simpa [cartRegion, Bank.size] using hlen.2
          vidTable := h.vidTable
          keymapSorted := h.keymapSorted
          pendYoung := h.pendYoung
          audioBounded := h.audioBounded
          audioLength := h.audioLength
          audioInside := h.audioInside }
      exact hl.of_eq rfl rfl rfl rfl rfl rfl rfl

theorem State.Inv.resetBlock {s : State} (h : s.Inv) (ch : Chips) : (s.resetBlock ch).Inv :=
  { memCanonical := h.memCanonical, memInside := h.memInside, cartFits := h.cartFits, cpuTable := h.cpuTable,
    vidTable := h.vidTable, keymapSorted := h.keymapSorted, pendYoung := h.pendYoung, audioBounded := h.audioBounded,
    audioLength := h.audioLength, audioInside := h.audioBounded.1 }

end Sys2Proof.Machine
end

