-- ==== Sys2Proof/Laws/Cycle.lean ====
section
/-! SUPPORT. The tick and every bus cycle as the rule's own pseudocode: what they do is `State.chipsTicked` of the state after
step 2 (40_tick_engine.md R81). -/

namespace Sys2Proof.Machine

theorem muxData_eq (p : Pins) (cs : Bool) (o : Byte) : muxData p cs o = driven cs p.rw o p.data := by
  unfold muxData driven
  cases cs <;> cases p.rw <;> rfl

/-- The audio step reads and writes the buffer and the trace only, so it commutes with the other updates of the tick's end. -/
theorem State.audioStep_update (q : VicOut) (u : State) (c1 c2 cv : ChipState) (p : Pins) (k : Byte) (n : Nat) :
    State.audioStep q { u with ioc1 := c1, ioc2 := c2, cols := k, vic := cv, pins := p, draws := n } =
      { State.audioStep q u with ioc1 := c1, ioc2 := c2, cols := k, vic := cv, pins := p, draws := n } := by
  unfold State.audioStep State.audioPush
  split
  · dsimp only
    split <;> rfl
  · rfl

/-- Lines 3 to 6 of R81, when step 1 has cleared the lines. -/
theorem State.chipSteps_eq {u : State} (h1 : u.pins.irq = false) (h2 : u.pins.nmi = false) (c1 c2 cv : Bool) :
    ((u.chipSteps Config.chips c1 c2 cv).closeConfig.answer .none) = u.chipsTicked c1 c2 cv := by
  have hf : State.vfetch (State.ioc2Step Config.chips c2 (State.ioc1Step Config.chips c1 u)) = u.vfetch :=
    State.vfetch_congr rfl rfl rfl
  unfold State.chipSteps State.vicStep State.chipsTicked
  rw [hf]
  simp only [muxData_eq, State.pinsV]
  simp only [State.ioc2Step, State.ioc1Step, Pins.routeIrq, Pins.routeNmi, muxData_eq, State.pins1, State.pins2, h1, h2,
    Bool.false_or]
  rw [State.audioStep_update]
  unfold Keyboard.scan State.audioStep
  rfl

/-- A tick operation on a valid block completes. -/
theorem tickOp_valid (f : State → State) {s : State} (hv : s.valid = true) :
    tickOp f s = .next ((f s).closeConfig.answer .none) := by
  simp [tickOp, operate, hv]

/-- A host operation on a valid block completes. -/
theorem operate_valid (f : State → State) {s : State} (hv : s.valid = true) : operate f s = .next (f s) := by
  simp [operate, hv]

theorem operate_invalid (f : State → State) {s : State} (hv : s.valid = false) : operate f s = .next (s.refuse .discarded) := by
  simp [operate, hv]

/-- The state after step 2 of a memory write cycle. -/
theorem State.writeCycle_eq (s : State) (a : Addr) (d : Byte) :
    (s.driveWrite a d).clearLines.writeMemory = { s.memWrite .cpu a d with pins := s.busPins a .wr d } := by
  have h : ((s.driveWrite a d).clearLines.memWrite .cpu a d).mem = (s.memWrite .cpu a d).mem := by
    rw [State.memWrite_mem, State.memWrite_mem]; rfl
  show (s.driveWrite a d).clearLines.memWrite .cpu a d = _
  rw [State.memWrite_eq, State.memWrite_eq s, h]
  rfl

theorem memRead_op {a : Addr} {s : State} (hv : s.valid = true) :
    tickOp (State.memReadCycle Config.chips a) s =
      .next (State.chipsTicked { s with pins := s.busPins a .rd (s.memRead .cpu a) } false false false) := by
  rw [tickOp_valid _ hv]
  exact congrArg _ (State.chipSteps_eq rfl rfl _ _ _)

theorem memWrite_op {a : Addr} {d : Byte} {s : State} (hv : s.valid = true) :
    tickOp (State.memWriteCycle Config.chips a d) s =
      .next (State.chipsTicked { s.memWrite .cpu a d with pins := s.busPins a .wr d } false false false) := by
  rw [tickOp_valid _ hv]
  unfold State.memWriteCycle
  rw [State.writeCycle_eq]
  exact congrArg _ (State.chipSteps_eq rfl rfl _ _ _)

theorem ioRead_op {a : Addr} {c1 c2 : Bool} {s : State} (hv : s.valid = true) :
    tickOp (State.ioReadCycle Config.chips c1 c2 a) s =
      .next (State.chipsTicked { s with pins := s.busPins a .rd (Config.draw s.draws 0), draws := s.draws + 1 } c1 c2
        (csvOf s.params a)) := by
  rw [tickOp_valid _ hv]
  exact congrArg _ (State.chipSteps_eq rfl rfl _ _ _)

theorem ioWrite_op {a : Addr} {d : Byte} {c1 c2 : Bool} {s : State} (hv : s.valid = true) :
    tickOp (State.ioWriteCycle Config.chips c1 c2 a d) s =
      .next (State.chipsTicked { s with pins := s.busPins a .wr d } c1 c2 (csvOf s.params a)) := by
  rw [tickOp_valid _ hv]
  exact congrArg _ (State.chipSteps_eq rfl rfl _ _ _)

/-- The VIC's select inside the window (R88). -/
theorem csvOf_window (p : Params) {a : Addr} (h1 : 0x9000 ≤ a.toNat) (h2 : a.toNat ≤ 0x93FF) :
    csvOf p a = p.vicSel.contains a := by
  unfold csvOf
  rw [(ioWindow_iff a).mpr ⟨h1, h2⟩]
  rfl

/-! ### What a cycle's outcome is, field by field -/

@[simp] theorem State.chipsTicked_mem (u : State) (c1 c2 cv : Bool) : (u.chipsTicked c1 c2 cv).mem = u.mem := by
  unfold State.chipsTicked; dsimp only; split <;> simp
@[simp] theorem State.chipsTicked_kbd (u : State) (c1 c2 cv : Bool) : (u.chipsTicked c1 c2 cv).kbd = u.kbd := by
  unfold State.chipsTicked; dsimp only; split <;> simp
@[simp] theorem State.chipsTicked_regionsCpu (u : State) (c1 c2 cv : Bool) : (u.chipsTicked c1 c2 cv).regionsCpu = u.regionsCpu := by
  unfold State.chipsTicked; dsimp only; split <;> simp
@[simp] theorem State.chipsTicked_regionsVid (u : State) (c1 c2 cv : Bool) : (u.chipsTicked c1 c2 cv).regionsVid = u.regionsVid := by
  unfold State.chipsTicked; dsimp only; split <;> simp
@[simp] theorem State.chipsTicked_cartLen (u : State) (c1 c2 cv : Bool) : (u.chipsTicked c1 c2 cv).cartLen = u.cartLen := by
  unfold State.chipsTicked; dsimp only; split <;> simp
@[simp] theorem State.chipsTicked_params (u : State) (c1 c2 cv : Bool) : (u.chipsTicked c1 c2 cv).params = u.params := by
  unfold State.chipsTicked; dsimp only; split <;> simp
@[simp] theorem State.chipsTicked_configPhase (u : State) (c1 c2 cv : Bool) : (u.chipsTicked c1 c2 cv).configPhase = false := rfl

/-- With no chip selected the data bus keeps its byte. -/
theorem State.chipsTicked_data (u : State) : (u.chipsTicked false false false).pins.data = u.pins.data := rfl

end Sys2Proof.Machine
end

