-- ==== Sys2Proof/Laws/Exec.lean ====
section
/-! SUPPORT. What an operation can do, said once: every operation is a chain of the block's named updates, so a relation that
is reflexive, transitive and holds of each update holds from the state before an operation to the state after it. -/

namespace Sys2Proof.Machine

/-- A host operation either runs on a valid block or is refused on a discarded one (R161). -/
theorem operate_cases {f : State → State} {s t : State} (h : operate f s = .next t) :
    (s.valid = true ∧ t = f s) ∨ (s.valid = false ∧ t = s.refuse .discarded) := by
  unfold operate at h
  cases hv : s.valid <;> simp [hv] at h
  · exact .inr ⟨rfl, h.symm⟩
  · exact .inl ⟨rfl, h.symm⟩

/-- The named updates an operation is made of, each inside a relation. Those that only some operations make are asked for
under those operations. -/
structure Updates (P : State → State → Prop) (i : Instr) (s : State) : Prop where
  same     : ∀ u, P u u
  chain    : ∀ {a b c}, P a b → P b c → P a c
  refuse   : ∀ (u : State) w, P u (u.refuse w)
  answer   : ∀ (u : State) r, P u (u.answer r)
  close    : ∀ u : State, P u u.closeConfig
  drawn    : ∀ u : State, P u u.drawn
  emit     : ∀ (u : State) e, P u (u.emit e)
  pins     : ∀ (u : State) (p : Pins), P u { u with pins := p }
  chips    : ∀ (u : State) c1 c2 cv, P u (u.chipSteps Config.chips c1 c2 cv)
  cpu      : ∀ u : State, P u (u.cpuStep Config.chips)
  write    : ∀ (u : State) sp a v, P u (u.memWrite sp a v)
  keyDown  : ∀ code, i = .keyDown code → ∀ u : State, P u (u.setKbd (u.kbd.keyDown code))
  keyUp    : ∀ code, i = .keyUp code → ∀ u : State, P u (u.setKbd (u.kbd.keyUp u.params.kbdHoldUs code))
  advance  : ∀ us, (i = .kbdAdvance us ∨ ∃ mode, i = .exec mode us) → ∀ u : State, P u (u.kbdAdvance us)
  bind     : ∀ m col row, i = .modRegister m col row → s.configPhase = true →
               P s (s.setKbd (s.kbd.bindModifier m { col := col, row := row }))
  register : ∀ code col row mask, i = .keyRegister code col row mask → s.configPhase = true →
               P s (s.setKbd (s.kbd.registerKey code { cell := { col := col, row := row }, mask := mask }))
  reset    : i = .reset → P s (s.resetBlock Config.chips)
  discard  : i = .discard → P s s.discard
  region   : ∀ sp acc layer id base len off, i = .mapRegion sp acc layer id base len off →
               ∀ r, s.admits sp r = true → P s (s.addRegion sp r)
  cart     : ∀ p, i = .cartInsert p → 1 ≤ p.length → p.length ≤ cartMax → s.cartClash p.length = false → P s (s.loadCart p)

variable {P : State → State → Prop} {i : Instr} {s : State}

theorem Updates.tick (h : Updates P i s) (u : State) : P u (u.tick Config.chips) := by
  unfold State.tick State.cycle
  refine h.chain (h.chain (h.cpu u) ?_) (h.chips _ _ _ _)
  refine h.chain (h.pins _ _) (?_ : P (u.cpuStep Config.chips).clearLines _)
  unfold State.transaction
  split
  · exact h.chain (h.pins _ _) (h.drawn _)
  · exact h.same _
  · exact h.pins _ _
  · exact h.write _ _ _ _

theorem Updates.loadBytes (h : Updates P i s) (bs : List Byte) (a : Addr) (u : State) : P u (u.loadBytes a bs) := by
  induction bs generalizing a u with
  | nil => exact h.same u
  | cons b bs ih => exact h.chain (h.write u .cpu a b) (ih (a + 1) (u.memWrite .cpu a b))

theorem Updates.operate (h : Updates P i s) {f : State → State} {t : State} (hf : P s (f s)) (he : operate f s = .next t) :
    P s t := by
  rcases operate_cases he with ⟨_, rfl⟩ | ⟨_, rfl⟩
  · exact hf
  · exact h.refuse _ _

theorem Updates.tickOp (h : Updates P i s) {f : State → State} {t : State} (hf : P s (f s)) (he : tickOp f s = .next t) :
    P s t :=
  h.operate (f := fun s => (f s).closeConfig.answer .none) (h.chain hf (h.chain (h.close _) (h.answer _ _))) he

theorem Updates.memReadCycle (h : Updates P i s) (a : Addr) : P s (s.memReadCycle Config.chips a) :=
  h.chain (h.pins s _) (h.chips _ _ _ _)

theorem Updates.memWriteCycle (h : Updates P i s) (a : Addr) (d : Byte) : P s (s.memWriteCycle Config.chips a d) :=
  h.chain (h.pins s _) (h.chain (h.write _ _ _ _) (h.chips _ _ _ _))

theorem Updates.ioReadCycle (h : Updates P i s) (c1 c2 : Bool) (a : Addr) : P s (s.ioReadCycle Config.chips c1 c2 a) :=
  h.chain (h.chain (h.pins s _) (h.drawn _)) (h.chips _ _ _ _)

theorem Updates.ioWriteCycle (h : Updates P i s) (c1 c2 : Bool) (a : Addr) (d : Byte) :
    P s (s.ioWriteCycle Config.chips c1 c2 a d) :=
  h.chain (h.pins s _) (h.chips _ _ _ _)

theorem Updates.fetchOnce (h : Updates P i s) (va : VAddr) : P s (s.fetchOnce va) := h.chain (h.answer _ _) (h.drawn _)

theorem Updates.execOp {mode : ExecMode} {e : Nat} (h : Updates P (.exec mode e) s) : P s (s.execOp Config.chips mode e) := by
  unfold State.execOp
  split
  · exact h.refuse _ _
  · refine h.chain (h.chain (h.close s) ?_) (h.chain (h.advance e (.inr ⟨mode, rfl⟩) _) (h.answer _ _))
    exact State.execLoop_keeps (P := P s.closeConfig) Config.chips (fun u hu => h.chain hu (h.tick u))
      (fun u hu => h.chain hu (h.chain (h.tick u) (h.chain (h.emit _ _) (h.drawn _)))) mode _ _ (h.same _)

/-- From the state before an operation to the state after it. -/
theorem Updates.exec (h : Updates P i s) {t : State} (he : exec i s = .next t) : P s t := by
  cases i with
  | rdZp a | rdRsv0A a | rdRsv0B a | rdRam a | rdRsv1A a | rdRsv1B a | rdChar a | rdColor a | rdRsv2 a | rdRsv3 a | rdBasic a
  | rdKernal a => exact h.tickOp (h.memReadCycle a) he
  | wrZp a d | wrRsv0A a d | wrRsv0B a d | wrRam a d | wrRsv1A a d | wrRsv1B a d | wrChar a d | wrColor a d | wrRsv2 a d
  | wrRsv3 a d | wrBasic a d | wrKernal a d => exact h.tickOp (h.memWriteCycle a d) he
  | ioRdNone a | ioRdC1 a | ioRdC2 a | ioRdC12 a => exact h.tickOp (h.ioReadCycle _ _ a) he
  | ioWrNone a d | ioWrC1 a d | ioWrC2 a d | ioWrC12 a d => exact h.tickOp (h.ioWriteCycle _ _ a d) he
  | vfChar va | vfGap0 va | vfZp va | vfGap1A va | vfGap1B va | vfRam va => cases he; exact h.fetchOnce va
  | tick => exact h.tickOp (h.tick s) he
  | exec mode e => exact h.operate h.execOp he
  | reset => exact h.operate (f := fun s => (s.resetBlock Config.chips).answer .none) (h.chain (h.reset rfl) (h.answer _ _)) he
  | keyDown code =>
    exact h.operate (f := fun s => (s.closeConfig.setKbd (s.kbd.keyDown code)).answer .none)
      (h.chain (h.close s) (h.chain (h.keyDown code rfl s.closeConfig) (h.answer _ _))) he
  | keyUp code =>
    exact h.operate (f := fun s => (s.closeConfig.setKbd (s.kbd.keyUp s.params.kbdHoldUs code)).answer .none)
      (h.chain (h.close s) (h.chain (h.keyUp code rfl s.closeConfig) (h.answer _ _))) he
  | kbdAdvance u =>
    exact h.operate (f := fun s => (s.closeConfig.kbdAdvance u).answer .none)
      (h.chain (h.close s) (h.chain (h.advance u (.inl rfl) s.closeConfig) (h.answer _ _))) he
  | scan cols =>
    exact h.operate (f := fun s => s.closeConfig.answer (.byte (s.kbd.scan cols))) (h.chain (h.close s) (h.answer _ _)) he
  | quickload p =>
    refine h.operate (f := State.quickload p) ?_ he
    unfold State.quickload
    split
    · exact h.chain (h.loadBytes _ _ _) (h.answer _ _)
    · exact h.answer _ _
  | cartInsert p =>
    refine h.operate (f := State.cartInsert p) ?_ he
    unfold State.cartInsert
    split
    · exact h.refuse _ _
    · next hn =>
      split
      · exact h.refuse _ _
      · next hc => exact h.chain (h.cart p rfl (by omega) (by omega) (by simpa using hc)) (h.answer _ _)
  | mapRegion sp acc layer id base len off =>
    refine h.operate (f := fun s => match Bank.ofId id with
      | some b => s.mapRegion sp { base := base, len := len, bank := b, off := off, acc := acc, layer := layer }
      | none => s.refuse .region) ?_ he
    split
    · unfold State.mapRegion
      split
      · next ha => exact h.chain (h.region _ _ _ _ _ _ _ rfl _ ha) (h.answer _ _)
      · exact h.refuse _ _
    · exact h.refuse _ _
  | keyRegister code col row mask =>
    refine h.operate
      (f := fun s => s.configure (s.kbd.registerKey code { cell := { col := col, row := row }, mask := mask })) ?_ he
    unfold State.configure
    split
    · next hc => exact h.chain (h.register code col row mask rfl hc) (h.answer _ _)
    · exact h.refuse _ _
  | modRegister m col row =>
    refine h.operate (f := fun s => s.configure (s.kbd.bindModifier m { col := col, row := row })) ?_ he
    unfold State.configure
    split
    · next hc => exact h.chain (h.bind m col row rfl hc) (h.answer _ _)
    · exact h.refuse _ _
  | memRead sp a => exact h.operate (f := fun s => s.answer (.byte (s.memRead sp a))) (h.answer _ _) he
  | memWrite sp a d =>
    exact h.operate (f := fun s => (s.memWrite sp a d).answer .none) (h.chain (h.write _ _ _ _) (h.answer _ _)) he
  | vfetch va => exact h.operate (h.fetchOnce va) he
  | discard => exact h.operate (f := fun s => s.discard.answer .none) (h.chain (h.discard rfl) (h.answer _ _)) he

end Sys2Proof.Machine
end

