-- ==== Sys2Proof/Laws/PerInstr.lean ====
section
/-! SUPPORT. Per operation: the word of a well-formed operation carries the fixed bits of its own row of
spec/opcode_table.json (30_encoding.md R73, R75, R76). -/

namespace Sys2Proof.Laws.EncodedRow

/-- The word of a well-formed operation matches its row's mask and match. -/
def Statement (i : Instr) : Prop := i.wellFormed = true → (encode i).word &&& i.row.1 = i.row.2

theorem rdZp (a : Addr) : Statement (.rdZp a) := fun h => rdWord_mask 10 rfl (by decide) (by simp only [Instr.row]; omega) h
theorem wrZp (a : Addr) (d : Byte) : Statement (.wrZp a d) := fun h => wrWord_mask 10 d rfl (by decide) (by simp only [Instr.row]; omega) h
theorem rdRsv0A (a : Addr) : Statement (.rdRsv0A a) := fun h => rdWord_mask 10 rfl (by decide) (by simp only [Instr.row]; omega) h
theorem wrRsv0A (a : Addr) (d : Byte) : Statement (.wrRsv0A a d) := fun h => wrWord_mask 10 d rfl (by decide) (by simp only [Instr.row]; omega) h
theorem rdRsv0B (a : Addr) : Statement (.rdRsv0B a) := fun h => rdWord_mask 11 rfl (by decide) (by simp only [Instr.row]; omega) h
theorem wrRsv0B (a : Addr) (d : Byte) : Statement (.wrRsv0B a d) := fun h => wrWord_mask 11 d rfl (by decide) (by simp only [Instr.row]; omega) h
theorem rdRam (a : Addr) : Statement (.rdRam a) := fun h => rdWord_mask 12 rfl (by decide) (by simp only [Instr.row]; omega) h
theorem wrRam (a : Addr) (d : Byte) : Statement (.wrRam a d) := fun h => wrWord_mask 12 d rfl (by decide) (by simp only [Instr.row]; omega) h
theorem rdRsv1A (a : Addr) : Statement (.rdRsv1A a) := fun h => rdWord_mask 13 rfl (by decide) (by simp only [Instr.row]; omega) h
theorem wrRsv1A (a : Addr) (d : Byte) : Statement (.wrRsv1A a d) := fun h => wrWord_mask 13 d rfl (by decide) (by simp only [Instr.row]; omega) h
theorem rdRsv1B (a : Addr) : Statement (.rdRsv1B a) := fun h => rdWord_mask 14 rfl (by decide) (by simp only [Instr.row]; omega) h
theorem wrRsv1B (a : Addr) (d : Byte) : Statement (.wrRsv1B a d) := fun h => wrWord_mask 14 d rfl (by decide) (by simp only [Instr.row]; omega) h
theorem rdChar (a : Addr) : Statement (.rdChar a) := fun h => rdWord_mask 12 rfl (by decide) (by simp only [Instr.row]; omega) h
theorem wrChar (a : Addr) (d : Byte) : Statement (.wrChar a d) := fun h => wrWord_mask 12 d rfl (by decide) (by simp only [Instr.row]; omega) h
theorem ioRdNone (a : Addr) : Statement (.ioRdNone a) := fun h => rdWord_io rfl h
theorem ioWrNone (a : Addr) (d : Byte) : Statement (.ioWrNone a d) := fun h => wrWord_io d rfl h
theorem ioRdC1 (a : Addr) : Statement (.ioRdC1 a) := fun h => rdWord_io rfl h
theorem ioWrC1 (a : Addr) (d : Byte) : Statement (.ioWrC1 a d) := fun h => wrWord_io d rfl h
theorem ioRdC2 (a : Addr) : Statement (.ioRdC2 a) := fun h => rdWord_io rfl h
theorem ioWrC2 (a : Addr) (d : Byte) : Statement (.ioWrC2 a d) := fun h => wrWord_io d rfl h
theorem ioRdC12 (a : Addr) : Statement (.ioRdC12 a) := fun h => rdWord_io rfl h
theorem ioWrC12 (a : Addr) (d : Byte) : Statement (.ioWrC12 a d) := fun h => wrWord_io d rfl h
theorem rdColor (a : Addr) : Statement (.rdColor a) := fun h => rdWord_mask 10 rfl (by decide) (by simp only [Instr.row]; omega) h
theorem wrColor (a : Addr) (d : Byte) : Statement (.wrColor a d) := fun h => wrWord_mask 10 d rfl (by decide) (by simp only [Instr.row]; omega) h
theorem rdRsv2 (a : Addr) : Statement (.rdRsv2 a) := fun h => rdWord_mask 11 rfl (by decide) (by simp only [Instr.row]; omega) h
theorem wrRsv2 (a : Addr) (d : Byte) : Statement (.wrRsv2 a d) := fun h => wrWord_mask 11 d rfl (by decide) (by simp only [Instr.row]; omega) h
theorem rdRsv3 (a : Addr) : Statement (.rdRsv3 a) := fun h => rdWord_mask 13 rfl (by decide) (by simp only [Instr.row]; omega) h
theorem wrRsv3 (a : Addr) (d : Byte) : Statement (.wrRsv3 a d) := fun h => wrWord_mask 13 d rfl (by decide) (by simp only [Instr.row]; omega) h
theorem rdBasic (a : Addr) : Statement (.rdBasic a) := fun h => rdWord_mask 13 rfl (by decide) (by simp only [Instr.row]; omega) h
theorem wrBasic (a : Addr) (d : Byte) : Statement (.wrBasic a d) := fun h => wrWord_mask 13 d rfl (by decide) (by simp only [Instr.row]; omega) h
theorem rdKernal (a : Addr) : Statement (.rdKernal a) := fun h => rdWord_mask 13 rfl (by decide) (by simp only [Instr.row]; omega) h
theorem wrKernal (a : Addr) (d : Byte) : Statement (.wrKernal a d) := fun h => wrWord_mask 13 d rfl (by decide) (by simp only [Instr.row]; omega) h
theorem vfChar (va : VAddr) : Statement (.vfChar va) := fun h => vfWord_mask 12 rfl (by decide) (by simp only [Instr.row]; omega) h
theorem vfGap0 (va : VAddr) : Statement (.vfGap0 va) := fun h => vfWord_mask 12 rfl (by decide) (by simp only [Instr.row]; omega) h
theorem vfZp (va : VAddr) : Statement (.vfZp va) := fun h => vfWord_mask 10 rfl (by decide) (by simp only [Instr.row]; omega) h
theorem vfGap1A (va : VAddr) : Statement (.vfGap1A va) := fun h => vfWord_mask 10 rfl (by decide) (by simp only [Instr.row]; omega) h
theorem vfGap1B (va : VAddr) : Statement (.vfGap1B va) := fun h => vfWord_mask 11 rfl (by decide) (by simp only [Instr.row]; omega) h
theorem vfRam (va : VAddr) : Statement (.vfRam va) := fun h => vfWord_mask 12 rfl (by decide) (by simp only [Instr.row]; omega) h
theorem tick : Statement .tick := fun _ => hostWord_mask 0 rfl (by decide) (by decide) rfl
theorem exec (mode : ExecMode) (e : Nat) : Statement (.exec mode e) := fun _ => hostWord_mask 1 rfl (by decide) (by simp only [toNat_append_add]; bv_omega) rfl
theorem reset : Statement .reset := fun _ => hostWord_mask 0 rfl (by decide) (by decide) rfl
theorem keyDown (code : Byte) : Statement (.keyDown code) := fun _ => hostWord_mask 8 rfl (by decide) (by simp only [toNat_append_add]; bv_omega) rfl
theorem keyUp (code : Byte) : Statement (.keyUp code) := fun _ => hostWord_mask 8 rfl (by decide) (by simp only [toNat_append_add]; bv_omega) rfl
theorem kbdAdvance (u : Nat) : Statement (.kbdAdvance u) := fun _ => hostWord_mask 0 rfl (by decide) (by decide) rfl
theorem scan (cols : Byte) : Statement (.scan cols) := fun _ => hostWord_mask 8 rfl (by decide) (by simp only [toNat_append_add]; bv_omega) rfl
theorem quickload (p : List Byte) : Statement (.quickload p) := fun _ => hostWord_mask 0 rfl (by decide) (by decide) rfl
theorem cartInsert (p : List Byte) : Statement (.cartInsert p) := fun _ => hostWord_mask 0 rfl (by decide) (by decide) rfl
theorem mapRegion (sp : Space) (acc : Access) (layer : Layer) (bank : BitVec 4) (base : Addr) (len : Nat) (off : Nat) : Statement (.mapRegion sp acc layer bank base len off) := fun _ => hostWord_mask 7 rfl (by decide) (by simp only [toNat_append_add]; bv_omega) rfl
theorem keyRegister (code : Byte) (col : BitVec 3) (row : BitVec 3) (mask : BitVec 2) : Statement (.keyRegister code col row mask) := fun _ => hostWord_mask 16 rfl (by decide) (by simp only [toNat_append_add]; bv_omega) rfl
theorem modRegister (m : BitVec 1) (col : BitVec 3) (row : BitVec 3) : Statement (.modRegister m col row) := fun _ => hostWord_mask 7 rfl (by decide) (by simp only [toNat_append_add]; bv_omega) rfl
theorem memRead (sp : Space) (a : Addr) : Statement (.memRead sp a) := fun _ => hostWord_mask 17 rfl (by decide) (by simp only [toNat_append_add]; bv_omega) rfl
theorem memWrite (sp : Space) (a : Addr) (d : Byte) : Statement (.memWrite sp a d) := fun _ => hostWord_mask 25 rfl (by decide) (by simp only [toNat_append_add]; bv_omega) rfl
theorem vfetch (va : VAddr) : Statement (.vfetch va) := fun _ => hostWord_mask 14 rfl (by decide) (by simp only [toNat_append_add]; bv_omega) rfl
theorem discard : Statement .discard := fun _ => hostWord_mask 0 rfl (by decide) (by decide) rfl

end Sys2Proof.Laws.EncodedRow
end

