-- ==== Sys2Proof/Certificates/Slice0/Obligations.lean ====
section
/-! DEFINITION. The statements for the provers, from the numbered rules of spec/. Every free value (`Config.draw`,
`Config.stopped`, `Config.powerOn`, the chips) stands in them unevaluated: each statement holds whatever it is. "The model's
own" fields are result, trace, draws, inbox (logs 1, 4, 5, 6) and configPhase (log 23). -/

section

open Sys2Proof Sys2Proof.Machine

/-! ### Encoding (30_encoding.md) -/

/-- R69, R71, R73: no field of any encoding is dropped. -/
def Obligations.DecodeEncodeRoundTrip : Prop :=
  ∀ i : Instr, i.wellFormed = true → decode (encode i) = .ok i

/-- R65, R72, R75, R76: what the decoder gives is an operation of its row, and its word is the one that came in. -/
def Obligations.DecodedIsWellFormed : Prop :=
  ∀ (f : Frame) (i : Instr), decode f = .ok i → i.wellFormed = true ∧ (encode i).sameWord f = true

/-- R75: every BUS word matches one row, and decodes to that row's class, at an address of that row's range. -/
def Obligations.EveryBusWordMatchesOneRow : Prop :=
  ∀ (w : BitVec 17) (d : Byte),
    (busRows.filter (fun r => r.matches w)).length = 1 ∧
    ∀ r ∈ busRows, r.matches w = true →
      decode (.bus w d) = .ok (r.make (w.extractLsb' 0 16) d) ∧ (r.make (w.extractLsb' 0 16) d).wellFormed = true

/-- R76, R77(b): every VF word matches one row, and decodes to that row's class, at an address of that row's range. -/
def Obligations.EveryVideoAddressMatchesOneRow : Prop :=
  ∀ va : VAddr,
    (vfRows.filter (fun r => r.matches va)).length = 1 ∧
    ∀ r ∈ vfRows, r.matches va = true → decode (.vf va) = .ok (r.make va) ∧ (r.make va).wellFormed = true

/-- R72, R77(c): a HOST word has an operation exactly when every bit its row does not name is 0. -/
def Obligations.HostWordDecodesIffNamed : Prop :=
  ∀ (w : BitVec 32) (ops : HostOperands), (∃ i, decode (.host w ops) = .ok i) ↔ ∃ r ∈ hostRows, w &&& r.1 = r.2

/-- Words of 95_test_vectors.md E-2, E-3 and E-4. -/
def Obligations.SpecWordsDecode : Prop :=
  decode (.bus 0x003FF 7) = .ok (.wrZp 0x03FF 7) ∧
  decode (.bus 0x17FFF 0) = .ok (.rdRsv1B 0x7FFF) ∧
  decode (.bus 0x193CF 0) = .ok (.ioRdNone 0x93CF) ∧
  decode (.bus 0x09310 7) = .ok (.ioWrC1 0x9310 7) ∧
  decode (.bus 0x193FF 0) = .ok (.ioRdC12 0x93FF) ∧
  decode (.bus 0x1FFFF 0) = .ok (.rdKernal 0xFFFF) ∧
  decode (.vf 0x2FFF) = .ok (.vfGap1B 0x2FFF) ∧
  decode (.host 0x10000001 { us := 1000 }) = .ok (.exec .instrumented 1000) ∧
  decode (.host 0x10000002 { us := 1000 }) = .error .unnamedBit ∧
  decode (.host 0x9000000A { base := 0x0400, len := 0x400 }) = .ok (.mapRegion .cpu .rw .l0 1 0x0400 0x400 0) ∧
  decode (.host 0xA0005441 {}) = .ok (.keyRegister 0x41 4 2 1) ∧
  decode (.host 0xD1423000 {}) = .ok (.memWrite .vid 0x3000 0x42)

/-! ### The step -/

/-- The next frame of the input, decoded, is executed with the frame taken from the input; with no input the block does
nothing (R78, R198; log 1). -/
def Obligations.StepRunsDecodedInstruction : Prop :=
  (∀ (s : State) (f : Frame) (rest : List Frame) (i : Instr), s.inbox = f :: rest → decode f = .ok i →
    step s = exec i { s with inbox := rest }) ∧
  (∀ s : State, s.inbox = [] → step s = .next s)

/-- R72, R77(c), R188: a frame with no operation marks the state refused and does nothing else; a discarded block is the
reason named first (R161; logs 3, 4). -/
def Obligations.UndecodableFrameIsRefused : Prop :=
  ∀ (s : State) (f : Frame) (rest : List Frame) (e : DecodeError), s.inbox = f :: rest → decode f = .error e →
    step s = .next { s with
      inbox := rest, refused := true, result := .refused (if s.valid = true then .badWord else .discarded) }

/-- R104, R186: no step stops. Each takes one frame of the input and leaves the parameters alone (R32; logs 1, 8). -/
def Obligations.StepNeverStops : Prop :=
  ∀ s : State, ∃ t, step s = .next t ∧ t.inbox = s.inbox.tail ∧ t.params = s.params

/-! ### Memory (20_memory.md) and the host's access to it (43_host_operations.md) -/

/-- R47, with R173 and R174: a MEM_WRITE then a MEM_READ at an address whose effective region is RW. -/
def Obligations.WriteThenReadReturnsWritten : Prop :=
  ∀ (s : State) (sp : Space) (a : Addr) (v : Byte) (r : Region),
    s.valid = true → s.effective sp a = some r → r.acc = .rw →
    ∃ t, exec (.memWrite sp a v) s = .next t ∧ exec (.memRead sp a) t = .next { t with result := .byte v }

/-- R48: under an RO effective region a MEM_WRITE changes nothing, and a MEM_READ gives the bank's byte. -/
def Obligations.ReadOnlyWriteIsDropped : Prop :=
  ∀ (s : State) (sp : Space) (a : Addr) (v : Byte) (r : Region),
    s.valid = true → s.effective sp a = some r → r.acc = .ro →
    exec (.memWrite sp a v) s = .next { s with result := .none } ∧
    exec (.memRead sp a) s = .next { s with result := .byte (s.bankByte r.bank (r.off + (a.toNat - r.base.toNat))) }

/-- R49: over two layers the layer-0 region is read, and an RO layer-0 region takes no write and lets none through. -/
def Obligations.LayerZeroHasPriority : Prop :=
  ∀ (s : State) (sp : Space) (a : Addr) (v : Byte) (r q : Region),
    s.Inv → s.valid = true → r ∈ s.regions sp → q ∈ s.regions sp → r.layer = .l0 → q.layer = .l1 →
    inRange r.base r.len a → inRange q.base q.len a →
    exec (.memRead sp a) s = .next { s with result := .byte (s.bankByte r.bank (r.off + (a.toNat - r.base.toNat))) } ∧
    (r.acc = .ro → exec (.memWrite sp a v) s = .next { s with result := .none })

/-- R45 (MEM_READ, R173): the effective region's cell, or FILL where no region covers the address; there a MEM_WRITE does
nothing (R46). -/
def Obligations.MemReadFollowsTheTable : Prop :=
  ∀ (s : State) (sp : Space) (a : Addr), s.valid = true →
    (∀ r, s.effective sp a = some r →
      exec (.memRead sp a) s = .next { s with result := .byte (s.bankByte r.bank (r.off + (a.toNat - r.base.toNat))) }) ∧
    ((∀ r ∈ s.regions sp, ¬ inRange r.base r.len a) →
      exec (.memRead sp a) s = .next { s with result := .byte 0xFF } ∧
      ∀ v, exec (.memWrite sp a v) s = .next { s with result := .none })

/-- R44: the effective region is the covering region of lowest layer, the only one there is, and none where none covers. -/
def Obligations.EffectiveRegionIsLowestLayer : Prop :=
  ∀ (s : State) (sp : Space) (a : Addr), s.Inv →
    (∀ r, s.effective sp a = some r ↔
      r ∈ s.regions sp ∧ inRange r.base r.len a ∧
        ∀ q ∈ s.regions sp, inRange q.base q.len a → q.layer = .l0 → r.layer = .l0) ∧
    (s.effective sp a = none ↔ ∀ r ∈ s.regions sp, ¬ inRange r.base r.len a)

/-- R46, R39, R58 (MEM_WRITE, R174): a write changes the one cell its RW effective region reaches, and no other byte of any
bank and no other state. -/
def Obligations.WriteChangesOneCell : Prop :=
  ∀ (s : State) (sp : Space) (a : Addr) (v : Byte), s.Inv → s.valid = true →
    ∃ t, exec (.memWrite sp a v) s = .next t ∧ t = { s with mem := t.mem, result := .none } ∧
      ∀ (b : Bank) (k : Nat), k < 0x2000 →
        ((∃ r, s.effective sp a = some r ∧ r.acc = .rw ∧ r.bank = b ∧ r.off + (a.toNat - r.base.toNat) = k) →
          t.bankByte b k = v) ∧
        (¬ (∃ r, s.effective sp a = some r ∧ r.acc = .rw ∧ r.bank = b ∧ r.off + (a.toNat - r.base.toNat) = k) →
          t.bankByte b k = s.bankByte b k)

/-- R40: two regions that reach one cell, in one space or in two, share it. -/
def Obligations.AliasesShareCells : Prop :=
  ∀ (s : State) (sp sp' : Space) (a b : Addr) (v : Byte) (r q : Region),
    s.valid = true → s.effective sp a = some r → r.acc = .rw → s.effective sp' b = some q → q.bank = r.bank →
    q.off + (b.toNat - q.base.toNat) = r.off + (a.toNat - r.base.toNat) →
    ∃ t, exec (.memWrite sp a v) s = .next t ∧ exec (.memRead sp' b) t = .next { t with result := .byte v }

/-- Memory in canonical form is determined by what it reads as (the model's own form, log 7). -/
def Obligations.CanonicalMemoryIsDetermined : Prop :=
  ∀ m m' : List Host.Cell, Memory.wf m → Memory.wf m' → (∀ k, Memory.read m k = Memory.read m' k) → m = m'

/-- R38, R172, R24: MAP_REGION adds its region exactly when the bank exists and is fitted, the ranges fit (a length of 0 does
not, log 15), and no region of the space shares the layer and an address. -/
def Obligations.MapRegionAdmission : Prop :=
  ∀ (s : State) (sp : Space) (acc : Access) (layer : Layer) (id : BitVec 4) (base : Addr) (len off : Nat),
    s.Inv → s.valid = true →
    let fits := fun b : Bank =>
      b.id = id.toNat ∧ b.present s.params.expPresent = true ∧ 1 ≤ len ∧ base.toNat + len ≤ 0x10000 ∧
        off + len ≤ b.size s.cartLen ∧
        ∀ q ∈ s.regions sp, q.layer = layer → ∀ a, ¬ (inRange q.base q.len a ∧ inRange base len a)
    (∀ b, fits b →
      let r : Region := { base := base, len := len, bank := b, off := off, acc := acc, layer := layer }
      exec (.mapRegion sp acc layer id base len off) s = .next (match sp with
        | .cpu => { s with regionsCpu := s.regionsCpu ++ [r], result := .none }
        | .vid => { s with regionsVid := s.regionsVid ++ [r], result := .none })) ∧
    ((∀ b, ¬ fits b) →
      exec (.mapRegion sp acc layer id base len off) s = .next { s with refused := true, result := .refused .region })

/-- R171, R188: which cartridges are refused, by name. The last clause is the model's reading of R38(d) (log 13). -/
def Obligations.CartInsertRefusals : Prop :=
  ∀ (s : State) (p : List Byte), s.valid = true →
    (p.length = 0 ∨ 0x2000 < p.length →
      exec (.cartInsert p) s = .next { s with refused := true, result := .refused .cartSize }) ∧
    (1 ≤ p.length → p.length ≤ 0x2000 → s.params.expPresent[3] = true →
      exec (.cartInsert p) s = .next { s with refused := true, result := .refused .cartOverlap }) ∧
    (1 ≤ p.length → p.length ≤ 0x2000 →
      (∃ q ∈ s.regionsCpu, q.isCart = false ∧ q.layer = .l0 ∧ ∃ a, inRange q.base q.len a ∧ inRange 0xA000 p.length a) →
      exec (.cartInsert p) s = .next { s with refused := true, result := .refused .cartOverlap })

/-- R171, R51: an admitted cartridge fills its bank, replaces an earlier cartridge's region with its own, shows its bytes
from 0xA000 up, takes no write there, and changes nothing else. -/
def Obligations.CartInsertLoadsAndRegisters : Prop :=
  ∀ (s : State) (p : List Byte), s.valid = true → 1 ≤ p.length → p.length ≤ 0x2000 → s.params.expPresent[3] = false →
    (∀ q ∈ s.regionsCpu, q.isCart = false → q.layer = .l0 → ∀ a, ¬ (inRange q.base q.len a ∧ inRange 0xA000 p.length a)) →
    (∀ q ∈ s.regionsCpu, 1 ≤ q.len) →
    ∃ t, exec (.cartInsert p) s = .next t ∧
      t = { s with
        mem := t.mem
        cartLen := p.length
        regionsCpu := s.regionsCpu.filter (fun r => !r.isCart) ++
          [{ base := 0xA000, len := p.length, bank := .cart, off := 0, acc := .ro, layer := .l0 }]
        result := .none } ∧
      (∀ k, k < p.length → t.bankByte .cart k = p.getD k 0) ∧
      (∀ b k, b ≠ .cart → k < 0x2000 → t.bankByte b k = s.bankByte b k) ∧
      ∀ a, inRange 0xA000 p.length a →
        exec (.memRead .cpu a) t = .next { t with result := .byte (p.getD (a.toNat - 0xA000) 0) } ∧
        ∀ v, exec (.memWrite .cpu a v) t = .next t

/-- R169, R170, R189: under two bytes QUICKLOAD answers false and changes nothing; from two bytes on, the remaining bytes are
written through the CPU space one by one from the little-endian load address, wrapping at the top, and nothing but memory and
the model's own answer changes. -/
def Obligations.QuickloadWritesBytes : Prop :=
  ∀ (s : State) (p : List Byte), s.valid = true →
    (p.length < 2 → exec (.quickload p) s = .next { s with result := .flag false }) ∧
    (2 ≤ p.length →
      let base : Addr := (p.getD 0 0).setWidth 16 ||| (p.getD 1 0).setWidth 16 <<< 8
      let loaded :=
        (List.range (p.length - 2)).foldl (fun t k => t.memWrite .cpu (base + BitVec.ofNat 16 k) (p.getD (2 + k) 0)) s
      exec (.quickload p) s = .next { loaded with result := .flag true } ∧ loaded = { s with mem := loaded.mem })

/-- R25: only MAP_REGION and CART_INSERT change a region table or the cartridge's length (R23). -/
def Obligations.RegionsChangeOnlyByRegistration : Prop :=
  ∀ (i : Instr) (s t : State), exec i s = .next t →
    (∀ sp acc layer id base len off, i ≠ .mapRegion sp acc layer id base len off) → (∀ p, i ≠ .cartInsert p) →
    t.regionsCpu = s.regionsCpu ∧ t.regionsVid = s.regionsVid ∧ t.cartLen = s.cartLen

/-- R21, R46, R48: while every region over the ROM banks is RO, no operation changes a ROM byte (log 12 for RW ones). -/
def Obligations.RomImagesSurvive : Prop :=
  ∀ (i : Instr) (s t : State), s.Inv → exec i s = .next t →
    (∀ sp, ∀ r ∈ s.regions sp, r.bank = .char ∨ r.bank = .basic ∨ r.bank = .kernal → r.acc = .ro) →
    ∀ b, b = Bank.char ∨ b = .basic ∨ b = .kernal → ∀ k, k < b.size 0 → t.bankByte b k = s.bankByte b k

/-! ### Video fetches (20_memory.md R52, 41_bus_transactions.md R133 to R139) -/

/-- R52, R175: VFETCH answers with the VID byte below and the color nibble above it; the top nibble is free. It changes
nothing but the model's own answer and draw counter. -/
def Obligations.VfetchAnswers : Prop :=
  ∀ (s : State) (va : VAddr), s.valid = true → FetchAnswers s va (.vfetch va) (s.memRead .vid (va.setWidth 16))

/-- R52, R133 to R137: every VF class is one fetch, whatever S.valid (log 21); with the construction-time VID table, each
word of a class decodes to it and answers with the byte its rule gives. -/
def Obligations.VideoFetchClasses : Prop :=
  ∀ (s : State) (va : VAddr),
    (∀ i ∈ fetchClasses va, FetchAnswers s va i (s.memRead .vid (va.setWidth 16))) ∧
    (s.regionsVid = vidLayout →
      (va &&& 0x3000 = 0x0000 → decode (.vf va) = .ok (.vfChar va) ∧ FetchAnswers s va (.vfChar va) (s.bankByte .char va.toNat)) ∧
      (va &&& 0x3000 = 0x1000 → decode (.vf va) = .ok (.vfGap0 va) ∧ FetchAnswers s va (.vfGap0 va) 0xFF) ∧
      (va &&& 0x3C00 = 0x2000 →
        decode (.vf va) = .ok (.vfZp va) ∧ FetchAnswers s va (.vfZp va) (s.bankByte .zp (va.toNat - 0x2000))) ∧
      (va &&& 0x3C00 = 0x2400 → decode (.vf va) = .ok (.vfGap1A va) ∧ FetchAnswers s va (.vfGap1A va) 0xFF) ∧
      (va &&& 0x3800 = 0x2800 → decode (.vf va) = .ok (.vfGap1B va) ∧ FetchAnswers s va (.vfGap1B va) 0xFF) ∧
      (va &&& 0x3000 = 0x3000 →
        decode (.vf va) = .ok (.vfRam va) ∧ FetchAnswers s va (.vfRam va) (s.bankByte .ram (va.toNat - 0x3000))))

/-- R139, R71, R53: the fetch capability cuts a wider address to bits 13:0, and its color cell is that of bits 9:0. -/
def Obligations.VideoAddressIsCut : Prop :=
  ∀ (s : State) (n : Nat) (va : Addr),
    s.vfetch n va = s.vfetch n (va &&& 0x3FFF) ∧
    (s.vfetch n va).extractLsb' 0 8 = s.memRead .vid (va &&& 0x3FFF) ∧
    (s.vfetch n va).extractLsb' 8 4 = (s.bankByte .color (va.toNat % 0x400)).extractLsb' 0 4

/-! ### The tick and the bus-cycle classes (40_tick_engine.md, 41_bus_transactions.md) -/

/-- R81 to R102: TICK is the rule's pseudocode, line by line, over the external chips. -/
def Obligations.TickIsOneCycle : Prop :=
  ∀ s : State, s.valid = true →
    let c := Config.chips.cpuTick s.cpu s.pins
    let p : Pins := { c.2 with irq := false, nmi := false }
    let io := decide (0x9000 ≤ p.addr.toNat ∧ p.addr.toNat ≤ 0x93FF)
    let m := if io = false ∧ p.rw = .wr then s.memWrite .cpu p.addr p.data else s
    let data :=
      if p.rw = .wr then p.data else if io then Config.draw s.draws 0 else s.memRead .cpu p.addr
    let drawn := if io = true ∧ p.rw = .rd then s.draws + 1 else s.draws
    exec .tick s = .next (State.chipsTicked { m with cpu := c.1, pins := { p with data := data }, draws := drawn }
      (io && p.addr.getLsbD 4) (io && p.addr.getLsbD 5) (io && s.params.vicSel.contains p.addr))

/-- R89, R91, R105 to R131: each memory read class completes as one tick that puts the memory's byte on the data bus, with no
chip selected and every chip ticked once. -/
def Obligations.MemoryReadClasses : Prop :=
  ∀ (s : State) (a : Addr), s.valid = true → ∀ i ∈ memReadClasses a,
    exec i s = .next (State.chipsTicked { s with pins := s.busPins a .rd (s.memRead .cpu a) } false false false)

/-- R89, R91, R101, R106 to R132: each memory write class completes as one tick that writes the CPU's byte through the memory
map, with no chip selected and every chip ticked once. -/
def Obligations.MemoryWriteClasses : Prop :=
  ∀ (s : State) (a : Addr) (d : Byte), s.valid = true → ∀ i ∈ memWriteClasses a d,
    exec i s = .next (State.chipsTicked { s.memWrite .cpu a d with pins := s.busPins a .wr d } false false false)

/-- R90, R100, R115 to R121, R138: each I/O read class completes as one tick on a free data byte, with its chips selected and
no memory access. -/
def Obligations.IoReadClasses : Prop :=
  ∀ (s : State) (a : Addr), s.valid = true → 0x9000 ≤ a.toNat → a.toNat ≤ 0x93FF → ∀ c ∈ ioReadClasses a,
    exec c.1 s = .next (State.chipsTicked
      { s with pins := s.busPins a .rd (Config.draw s.draws 0), draws := s.draws + 1 } c.2.1 c.2.2 (s.params.vicSel.contains a))

/-- R90, R101, R116 to R122, R138: each I/O write class completes as one tick that offers the CPU's byte to its selected
chips, with no memory access. -/
def Obligations.IoWriteClasses : Prop :=
  ∀ (s : State) (a : Addr) (d : Byte), s.valid = true → 0x9000 ≤ a.toNat → a.toNat ≤ 0x93FF → ∀ c ∈ ioWriteClasses a d,
    exec c.1 s = .next (State.chipsTicked
      { s with pins := s.busPins a .wr d } c.2.1 c.2.2 (s.params.vicSel.contains a))

/-- R100, R115 to R121: on an I/O read the last selected chip in the order IOC1, IOC2, VIC drives the data bus; with none
selected it keeps the free byte. Each chip sees what the one before it left. -/
def Obligations.LastSelectedChipDrives : Prop :=
  ∀ (s : State) (a : Addr), s.valid = true → 0x9000 ≤ a.toNat → a.toNat ≤ 0x93FF → ∀ c ∈ ioReadClasses a,
    let free := Config.draw s.draws 0
    let q1 := (Config.chips.ioc1Tick s.ioc1
      { addr := a, data := free, rw := .rd, cs := c.2.1, rowPort := 0xFF, others := true }).2
    let b1 := if c.2.1 then q1.data else free
    let q2 := (Config.chips.ioc2Tick s.ioc2
      { addr := a, data := b1, rw := .rd, cs := c.2.2, rowPort := s.kbd.scan s.cols, others := true }).2
    let b2 := if c.2.2 then q2.data else b1
    let qv := (Config.chips.vicTick s.vic { addr := a, data := b2, rw := .rd, cs := s.params.vicSel.contains a }
      { s with draws := s.draws + 1 }.vfetch).2
    ∃ t, exec c.1 s = .next t ∧
      t.pins.data = (if s.params.vicSel.contains a then qv.data else if c.2.2 then q2.data else if c.2.1 then q1.data else free)

/-- R105 to R131 at the construction-time CPU table (R41, R50): each read word decodes to its class and reads its bank, or
FILL. -/
def Obligations.ConstructionLayoutReads : Prop :=
  ∀ (s : State) (a : Addr), s.valid = true → s.regionsCpu = cpuLayout s.params.expPresent →
    let w : BitVec 17 := 1#1 ++ a
    let n := a.toNat
    let fitted := s.params.expPresent
    (w &&& 0x1FC00 = 0x10000 → ReadsAs s a (.rdZp a) (s.bankByte .zp n)) ∧
    (w &&& 0x1FC00 = 0x10400 → ReadsAs s a (.rdRsv0A a) 0xFF) ∧
    (w &&& 0x1F800 = 0x10800 → ReadsAs s a (.rdRsv0B a) 0xFF) ∧
    (w &&& 0x1F000 = 0x11000 → ReadsAs s a (.rdRam a) (s.bankByte .ram (n - 0x1000))) ∧
    (w &&& 0x1E000 = 0x12000 → ReadsAs s a (.rdRsv1A a) (if fitted[0] then s.bankByte .exp0 (n - 0x2000) else 0xFF)) ∧
    (w &&& 0x1C000 = 0x14000 → ReadsAs s a (.rdRsv1B a)
      (if n < 0x6000 then (if fitted[1] then s.bankByte .exp1 (n - 0x4000) else 0xFF)
       else if fitted[2] then s.bankByte .exp2 (n - 0x6000) else 0xFF)) ∧
    (w &&& 0x1F000 = 0x18000 → ReadsAs s a (.rdChar a) (s.bankByte .char (n - 0x8000))) ∧
    (w &&& 0x1FC00 = 0x19400 → ReadsAs s a (.rdColor a) (s.bankByte .color (n - 0x9400))) ∧
    (w &&& 0x1F800 = 0x19800 → ReadsAs s a (.rdRsv2 a) 0xFF) ∧
    (w &&& 0x1E000 = 0x1A000 → ReadsAs s a (.rdRsv3 a) (if fitted[3] then s.bankByte .exp3 (n - 0xA000) else 0xFF)) ∧
    (w &&& 0x1E000 = 0x1C000 → ReadsAs s a (.rdBasic a) (s.bankByte .basic (n - 0xC000))) ∧
    (w &&& 0x1E000 = 0x1E000 → ReadsAs s a (.rdKernal a) (s.bankByte .kernal (n - 0xE000)))

/-- R106 to R132 at the construction-time CPU table (R41, R50): each write word decodes to its class and writes its one cell,
or nothing. -/
def Obligations.ConstructionLayoutWrites : Prop :=
  ∀ (s : State) (a : Addr) (d : Byte), s.valid = true → s.regionsCpu = cpuLayout s.params.expPresent →
    let w : BitVec 17 := 0#1 ++ a
    let n := a.toNat
    let fitted := s.params.expPresent
    (w &&& 0x1FC00 = 0x00000 → WritesCell s a d (.wrZp a d) .zp n) ∧
    (w &&& 0x1FC00 = 0x00400 → WritesNothing s a d (.wrRsv0A a d)) ∧
    (w &&& 0x1F800 = 0x00800 → WritesNothing s a d (.wrRsv0B a d)) ∧
    (w &&& 0x1F000 = 0x01000 → WritesCell s a d (.wrRam a d) .ram (n - 0x1000)) ∧
    (w &&& 0x1E000 = 0x02000 →
      if fitted[0] then WritesCell s a d (.wrRsv1A a d) .exp0 (n - 0x2000) else WritesNothing s a d (.wrRsv1A a d)) ∧
    (w &&& 0x1C000 = 0x04000 →
      if n < 0x6000 then
        (if fitted[1] then WritesCell s a d (.wrRsv1B a d) .exp1 (n - 0x4000) else WritesNothing s a d (.wrRsv1B a d))
      else if fitted[2] then WritesCell s a d (.wrRsv1B a d) .exp2 (n - 0x6000) else WritesNothing s a d (.wrRsv1B a d)) ∧
    (w &&& 0x1F000 = 0x08000 → WritesNothing s a d (.wrChar a d)) ∧
    (w &&& 0x1FC00 = 0x09400 → WritesCell s a d (.wrColor a d) .color (n - 0x9400)) ∧
    (w &&& 0x1F800 = 0x09800 → WritesNothing s a d (.wrRsv2 a d)) ∧
    (w &&& 0x1E000 = 0x0A000 →
      if fitted[3] then WritesCell s a d (.wrRsv3 a d) .exp3 (n - 0xA000) else WritesNothing s a d (.wrRsv3 a d)) ∧
    (w &&& 0x1E000 = 0x0C000 → WritesNothing s a d (.wrBasic a d)) ∧
    (w &&& 0x1E000 = 0x0E000 → WritesNothing s a d (.wrKernal a d))

/-- R83: a bus cycle does not depend on the interrupt lines it finds, since both are cleared first. -/
def Obligations.InterruptLinesAreFresh : Prop :=
  ∀ (s : State) (a : Addr) (d : Byte) (irq nmi : Bool), s.valid = true → ∀ i ∈ busClasses a d,
    exec i { s with pins := { s.pins with irq := irq, nmi := nmi } } = exec i s

/-- R61, R99: the video chip's fetches in the tick of a write see the written byte. -/
def Obligations.SameTickFetchSeesWrite : Prop :=
  ∀ (s : State) (a va : Addr) (d : Byte) (r q : Region), s.valid = true →
    s.effective .cpu a = some r → r.acc = .rw → s.effective .vid (va &&& 0x3FFF) = some q → q.bank = r.bank →
    q.off + ((va &&& 0x3FFF).toNat - q.base.toNat) = r.off + (a.toNat - r.base.toNat) →
    ∀ i ∈ memWriteClasses a d, ∃ (t : State) (port : FetchPort), exec i s = .next t ∧
      t.vic = (Config.chips.vicTick s.vic { addr := a, data := d, rw := .wr, cs := false } port).1 ∧
      port = (s.memWrite .cpu a d).vfetch ∧ ∀ n, (port n va).extractLsb' 0 8 = d

/-- R90, R140: an I/O-window cycle changes no memory and does not depend on the CPU region table. -/
def Obligations.WindowCyclesIgnoreTheMap : Prop :=
  ∀ (s : State) (a : Addr) (d : Byte) (rs : List Region), s.valid = true →
    ∀ c ∈ ioReadClasses a ++ ioWriteClasses a d, ∃ t, exec c.1 s = .next t ∧ t.mem = s.mem ∧
      exec c.1 { s with regionsCpu := rs } = .next { t with regionsCpu := rs }

/-- R102, R103: a sample is stored at the write position; a full buffer is handed to the sink and the position starts again. -/
def Obligations.AudioPushFlushesWhenFull : Prop :=
  ∀ (s : State) (x : Sample), s.Inv →
    let buf := s.audio.buf.set s.audio.pos x
    (s.audio.pos + 1 = s.params.audioCap →
      s.audioPush x = { s with audio := { buf := buf, pos := 0 }, trace := s.trace ++ [.audioSink buf s.params.audioCap] }) ∧
    (s.audio.pos + 1 ≠ s.params.audioCap → s.audioPush x = { s with audio := { buf := buf, pos := s.audio.pos + 1 } }) ∧
    (s.audioPush x).audio.buf[s.audio.pos]? = some x

/-! ### The keyboard (42_keyboard.md) -/

/-- R145, R147: KEY_DOWN presses the key's cell and its bound modifiers' cells, and no other; an unregistered code presses
none. Either way the configuration phase is over (R144), which for an unregistered code is the model's reading (log 23). -/
def Obligations.KeyDownPresses : Prop :=
  ∀ (s : State) (code : Byte), s.valid = true →
    (assocFind s.kbd.keymap code.toNat = none →
      exec (.keyDown code) s = .next { s with configPhase := false, result := .none }) ∧
    ∀ e, assocFind s.kbd.keymap code.toNat = some e →
      ∃ t, exec (.keyDown code) s = .next t ∧ t = { s with kbd := t.kbd, configPhase := false, result := .none } ∧
        t.kbd.modCell = s.kbd.modCell ∧ t.kbd.keymap = s.kbd.keymap ∧
        ∀ x, (KeyCells s.kbd e x → t.kbd.cell x = { pressed := true, age := 0, pend := false }) ∧
          (¬ KeyCells s.kbd e x → t.kbd.cell x = s.kbd.cell x)

/-- R146, R147, R156: KEY_UP releases the key's cell and its bound modifiers' cells once they are old enough and marks them
pending until then, whoever else holds them; an unregistered code releases none. Either way the configuration phase is over
(R144), which for an unregistered code is the model's reading (log 23); so is the pending mark of a young cell that is not
pressed (log 17). -/
def Obligations.KeyUpReleases : Prop :=
  ∀ (s : State) (code : Byte), s.valid = true →
    (assocFind s.kbd.keymap code.toNat = none →
      exec (.keyUp code) s = .next { s with configPhase := false, result := .none }) ∧
    ∀ e, assocFind s.kbd.keymap code.toNat = some e →
      ∃ t, exec (.keyUp code) s = .next t ∧ t = { s with kbd := t.kbd, configPhase := false, result := .none } ∧
        t.kbd.modCell = s.kbd.modCell ∧ t.kbd.keymap = s.kbd.keymap ∧
        ∀ x, (KeyCells s.kbd e x → t.kbd.cell x =
            if s.params.kbdHoldUs ≤ (s.kbd.cell x).age then { s.kbd.cell x with pressed := false, pend := false }
            else { s.kbd.cell x with pend := true }) ∧
          (¬ KeyCells s.kbd e x → t.kbd.cell x = s.kbd.cell x)

/-- R142, R143: in the configuration phase MOD_REGISTER binds one modifier and KEY_REGISTER maps one code, replacing an
earlier registration. -/
def Obligations.RegistrationBinds : Prop :=
  ∀ s : State, s.valid = true → s.configPhase = true →
    (∀ (m : BitVec 1) (col row : BitVec 3), ∃ t, exec (.modRegister m col row) s = .next t ∧
      t = { s with kbd := { s.kbd with modCell := t.kbd.modCell }, result := .none } ∧
      ∀ j : Fin 2, t.kbd.modCell[j] = if j.val = m.toNat then some { col := col, row := row } else s.kbd.modCell[j]) ∧
    (∀ (code : Byte) (col row : BitVec 3) (mask : BitVec 2), ∃ t, exec (.keyRegister code col row mask) s = .next t ∧
      t = { s with kbd := { s.kbd with keymap := t.kbd.keymap }, result := .none } ∧
      ∀ k, assocFind t.kbd.keymap k =
        if k = code.toNat then some { cell := { col := col, row := row }, mask := mask } else assocFind s.kbd.keymap k)

/-- R144, R188: after the configuration phase both registrations are refused. -/
def Obligations.RegistrationRefusedLater : Prop :=
  ∀ s : State, s.valid = true → s.configPhase = false →
    (∀ m col row, exec (.modRegister m col row) s = .next { s with refused := true, result := .refused .configClosed }) ∧
    (∀ code col row mask,
      exec (.keyRegister code col row mask) s = .next { s with refused := true, result := .refused .configClosed })

/-- R144: once the configuration phase is over no operation reopens it, and the modifiers' cells and the keymap are fixed;
the operations R144 names end it, EXEC in instrumented mode where a debug hook admits it (R166), and so does every bus cycle,
which is a tick (log 23). -/
def Obligations.ConfigurationStaysFixed : Prop :=
  (∀ (i : Instr) (s t : State), exec i s = .next t → s.configPhase = false →
    t.configPhase = false ∧ t.kbd.modCell = s.kbd.modCell ∧ t.kbd.keymap = s.kbd.keymap) ∧
  (∀ (s : State) (a : Addr) (d code cols : Byte) (e u : Nat), s.valid = true →
    (∀ i ∈ [.tick, .exec .freeRun e, .keyDown code, .keyUp code, .kbdAdvance u, .scan cols] ++ busClasses a d,
      ∃ t, exec i s = .next t ∧ t.configPhase = false) ∧
    (s.params.debugHook = true → ∃ t, exec (.exec .instrumented e) s = .next t ∧ t.configPhase = false))

/-- R148: KBD_ADVANCE ages every pressed cell and clears those whose pending release has come due. -/
def Obligations.KbdAdvanceAges : Prop :=
  ∀ (s : State) (u : Nat), s.valid = true →
    ∃ t, exec (.kbdAdvance u) s = .next t ∧ t = { s with kbd := t.kbd, configPhase := false, result := .none } ∧
      t.kbd.modCell = s.kbd.modCell ∧ t.kbd.keymap = s.kbd.keymap ∧
      ∀ x, t.kbd.cell x =
        if (s.kbd.cell x).pressed = false then s.kbd.cell x
        else if (s.kbd.cell x).pend = true ∧ s.params.kbdHoldUs ≤ (s.kbd.cell x).age + u then
          { pressed := false, age := (s.kbd.cell x).age + u, pend := false }
        else { s.kbd.cell x with age := (s.kbd.cell x).age + u }

/-- R150, R152: SCAN answers with a 0 in bit r exactly when an active column has a pressed cell in row r; it changes nothing
but the model's own answer and configuration phase. -/
def Obligations.ScanReportsRows : Prop :=
  ∀ (s : State) (cols : Byte), s.valid = true →
    ∃ b : Byte, exec (.scan cols) s = .next { s with configPhase := false, result := .byte b } ∧
      ∀ row : BitVec 3, b.getLsbD row.toNat = false ↔
        ∃ col : BitVec 3, cols.getLsbD col.toNat = true ∧ (s.kbd.cell { col := col, row := row }).pressed = true

/-- R149: a pressed cell younger than the hold time survives a KEY_UP and any keyboard time that leaves it younger. -/
def Obligations.HeldKeyStaysVisible : Prop :=
  ∀ (s : State) (x : Coord) (code : Byte) (u : Nat), s.valid = true → (s.kbd.cell x).pressed = true →
    (s.kbd.cell x).age + u < s.params.kbdHoldUs →
    ∃ t t', exec (.keyUp code) s = .next t ∧ exec (.kbdAdvance u) t = .next t' ∧
      (t'.kbd.cell x).pressed = true ∧ (t'.kbd.cell x).age = (s.kbd.cell x).age + u

/-- R26, R145, R146, R148, R149, R151, R167, R202: the matrix changes only by KEY_DOWN, KEY_UP, KBD_ADVANCE and EXEC; R142,
R143: the bindings besides only by the registrations. -/
def Obligations.GridChangesOnlyByKeyboardOperations : Prop :=
  ∀ (i : Instr) (s t : State), exec i s = .next t →
    (∀ code, i ≠ .keyDown code) → (∀ code, i ≠ .keyUp code) → (∀ u, i ≠ .kbdAdvance u) → (∀ mode e, i ≠ .exec mode e) →
    t.kbd.cells = s.kbd.cells ∧
    ((∀ m col row, i ≠ .modRegister m col row) → (∀ code col row mask, i ≠ .keyRegister code col row mask) → t.kbd = s.kbd)

/-! ### Time, reset and the block's life (43_host_operations.md, 70_reset_and_hazards.md, 60_exceptions.md) -/

/-- R164, R165, R167: free-run EXEC runs the floor of CLOCK_HZ times E over a million ticks, each the one TICK runs, then
advances the keyboard by E and answers with the count. -/
def Obligations.ExecFreeRun : Prop :=
  ∀ (s : State) (e : Nat), s.valid = true →
    let n := 1108404 * e / 1000000
    let u := (State.tick Config.chips)^[n] { s with configPhase := false }
    exec (.exec .freeRun e) s = .next { u with kbd := u.kbd.advance s.params.kbdHoldUs e, result := .count n } ∧
    exec .tick s = .next { s.tick Config.chips with configPhase := false, result := .none }

/-- R166, R167: instrumented EXEC makes the debug callback after every tick and stops at the first raised stopped flag or at
the free-run count; the keyboard advances by the whole E. With no debug hook it is refused. -/
def Obligations.ExecInstrumented : Prop :=
  ∀ (s : State) (e : Nat), s.valid = true →
    let n := 1108404 * e / 1000000
    let watched := fun u : State =>
      let t := u.tick Config.chips
      { t with trace := t.trace ++ [.debugCallback t.pins], draws := t.draws + 1 }
    let run := fun k : Nat => watched^[k] { s with configPhase := false }
    (s.params.debugHook = false →
      exec (.exec .instrumented e) s = .next { s with refused := true, result := .refused .noDebugHook }) ∧
    (s.params.debugHook = true → ∃ k, k ≤ n ∧
      exec (.exec .instrumented e) s =
        .next { run k with kbd := (run k).kbd.advance s.params.kbdHoldUs e, result := .count k } ∧
      (∀ j, 0 < j → j < k → Config.stopped (run j).draws = false) ∧
      (k < n → 0 < k ∧ Config.stopped (run k).draws = true))

/-- R168: EXEC 0 answers 0 and changes nothing but the model's own answer and configuration phase (log 23), and it is the
only elapsed time with no tick. -/
def Obligations.ExecZero : Prop :=
  (∀ (s : State) (mode : ExecMode), s.Inv → s.valid = true → (mode = .instrumented → s.params.debugHook = true) →
    exec (.exec mode 0) s = .next { s with configPhase := false, result := .count 0 }) ∧
  ∀ e, ticksFor e = 0 ↔ e = 0

/-- R201, R202: RESET resets the chips, the pins, the column latch and the audio position, and preserves all the rest. -/
def Obligations.ResetRestarts : Prop :=
  ∀ s : State, s.valid = true →
    exec .reset s = .next { s with
      cpu := Config.chips.cpuReset s.cpu
      ioc1 := Config.chips.ioc1Reset s.ioc1
      ioc2 := Config.chips.ioc2Reset s.ioc2
      vic := Config.chips.vicReset s.vic
      pins := { addr := s.params.pinReset.addr, data := s.params.pinReset.data, rw := s.params.pinReset.rw, irq := false,
                nmi := false, other := s.params.pinReset.other }
      cols := 0
      audio := { s.audio with pos := 0 }
      result := .none }

/-- R176: DISCARD clears the validity flag. -/
def Obligations.DiscardInvalidates : Prop :=
  ∀ s : State, s.valid = true → exec .discard s = .next { s with valid := false, result := .none }

/-- R161, R176, R188: on a discarded block every host operation and every tick is refused, and changes nothing but the mark
(the fetch port stays open, log 21). -/
def Obligations.DiscardedBlockRefuses : Prop :=
  ∀ (i : Instr) (s : State), s.valid = false → i.isFetch = false →
    exec i s = .next { s with refused := true, result := .refused .discarded }

/-- R30, R31: the refusal mark is never cleared, and only DISCARD clears the validity flag, which nothing sets again. -/
def Obligations.MarksAreSticky : Prop :=
  ∀ (i : Instr) (s t : State), exec i s = .next t →
    (s.refused = true → t.refused = true) ∧ (t.valid = true ↔ s.valid = true ∧ i ≠ .discard)

/-- R187, R162, R154: construction faults by name on a wrong ROM size, then a wrong audio capacity, then a debug callback
with no stop flag; a joystick is refused (log 18); otherwise the state is R35's, with every parameter the one given (R32; a hold
time not given is 0, R7) and the images in the ROM banks. -/
def Obligations.ConstructionOutcomes : Prop :=
  ∀ c : Setup,
    let sizes := c.char.length = 0x1000 ∧ c.basic.length = 0x2000 ∧ c.kernal.length = 0x2000
    let audio := c.audioCap ≤ c.audioMax ∧ c.audioCap ≠ 0
    let debug := c.debugCb = true → c.stopFlag = true
    (¬ sizes → construct c = .fault .romSize) ∧
    (sizes → ¬ audio → construct c = .fault .audioCap) ∧
    (sizes → audio → ¬ debug → construct c = .fault .debugStop) ∧
    (sizes → audio → debug → c.joystick = true → construct c = .refused .joystick) ∧
    (sizes → audio → debug → c.joystick = false → ∃ t, construct c = .next t ∧
      t = { State.constructed t.params with mem := t.mem } ∧
      t.params = {
        vicSel := c.vicSel
        expPresent := c.expPresent
        kbdHoldUs := match c.kbdHoldUs with | some u => u | none => 0
        sampleRate := c.sampleRate
        volume := c.volume
        audioCap := c.audioCap
        audioMax := c.audioMax
        debugHook := c.debugCb
        pinReset := c.pinReset } ∧
      (∀ k, k < 0x1000 → t.bankByte .char k = c.char.getD k 0) ∧
      (∀ k, k < 0x2000 → t.bankByte .basic k = c.basic.getD k 0) ∧
      (∀ k, k < 0x2000 → t.bankByte .kernal k = c.kernal.getD k 0))

/-- R35, R41, R43, R50: the state right after construction. The keymap and the modifiers are empty (log 16), the parameters are
free within what construction admits (R7, D30; log 8), and the sample buffer has its capacity (R29). -/
def Obligations.ResetValues : Prop :=
  State.reset = State.constructed Config.params ∧
  1 ≤ Config.params.audioCap ∧ Config.params.audioCap ≤ Config.params.audioMax ∧
  ∀ p : Params, let s := State.constructed p
    s.cpu = Config.chips.cpuReset Config.chips.cpuInit ∧ s.ioc1 = Config.chips.ioc1Reset Config.chips.ioc1Init ∧
    s.ioc2 = Config.chips.ioc2Reset Config.chips.ioc2Init ∧ s.vic = Config.chips.vicReset Config.chips.vicInit ∧
    s.pins.irq = false ∧ s.pins.nmi = false ∧ s.pins.addr = p.pinReset.addr ∧ s.pins.data = p.pinReset.data ∧
    s.pins.rw = p.pinReset.rw ∧ s.pins.other = p.pinReset.other ∧
    s.mem = [] ∧ s.cartLen = 0 ∧ s.regionsCpu = cpuLayout p.expPresent ∧ s.regionsVid = vidLayout ∧
    (∀ x, s.kbd.cell x = { pressed := false, age := 0, pend := false }) ∧
    s.kbd.keymap = [] ∧ (∀ j : Fin 2, s.kbd.modCell[j] = none) ∧
    s.cols = 0 ∧ s.audio.pos = 0 ∧ s.audio.buf.length = p.audioCap ∧ s.params = p ∧ s.valid = true ∧
    s.refused = false ∧ s.configPhase = true

/-! ### The invariant -/

/-- Every step keeps the invariant, from every state that has it. -/
def Obligations.StepKeepsInvariant : Prop :=
  ∀ s t : State, s.Inv → step s = .next t → t.Inv

/-- The state of the reset has the invariant. -/
def Obligations.ResetHasInvariant : Prop := State.reset.Inv

/-- So has every state that construction gives (R162). -/
def Obligations.ConstructedHasInvariant : Prop :=
  ∀ (c : Setup) (t : State), construct c = .next t → t.Inv

end
end

