-- ==== Sys2Proof/Tests/Slice0.lean ====
section
/-! SUPPORT. The model's own tests: ill-formed terms, written-out words, small steps from 95_test_vectors.md, and for every
obligation with hypotheses a named witness that its hypotheses can hold. Expected values come from the spec, never from the
model. -/

namespace Sys2Proof.Tests

open Sys2Proof Sys2Proof.Machine

/-! ### Well-formedness: an ill-formed term for each check, just outside its row (30_encoding.md R75, R76) -/

theorem test_ill_rdZp : (Instr.rdZp 0x0400).wellFormed = false := by decide
theorem test_ill_wrZp : (Instr.wrZp 0x0400 0).wellFormed = false := by decide
theorem test_ill_rdRsv0A : (Instr.rdRsv0A 0x03FF).wellFormed = false := by decide
theorem test_ill_wrRsv0A : (Instr.wrRsv0A 0x0800 0).wellFormed = false := by decide
theorem test_ill_rdRsv0B : (Instr.rdRsv0B 0x07FF).wellFormed = false := by decide
theorem test_ill_wrRsv0B : (Instr.wrRsv0B 0x1000 0).wellFormed = false := by decide
theorem test_ill_rdRam : (Instr.rdRam 0x2000).wellFormed = false := by decide
theorem test_ill_wrRam : (Instr.wrRam 0x0FFF 0).wellFormed = false := by decide
theorem test_ill_rdRsv1A : (Instr.rdRsv1A 0x4000).wellFormed = false := by decide
theorem test_ill_wrRsv1A : (Instr.wrRsv1A 0x1FFF 0).wellFormed = false := by decide
theorem test_ill_rdRsv1B : (Instr.rdRsv1B 0x8000).wellFormed = false := by decide
theorem test_ill_wrRsv1B : (Instr.wrRsv1B 0x3FFF 0).wellFormed = false := by decide
theorem test_ill_rdChar : (Instr.rdChar 0x9000).wellFormed = false := by decide
theorem test_ill_wrChar : (Instr.wrChar 0x7FFF 0).wellFormed = false := by decide
theorem test_ill_ioRdNone : (Instr.ioRdNone 0x9010).wellFormed = false := by decide
theorem test_ill_ioWrNone : (Instr.ioWrNone 0x9400 0).wellFormed = false := by decide
theorem test_ill_ioRdC1 : (Instr.ioRdC1 0x9030).wellFormed = false := by decide
theorem test_ill_ioWrC1 : (Instr.ioWrC1 0x9000 0).wellFormed = false := by decide
theorem test_ill_ioRdC2 : (Instr.ioRdC2 0x9030).wellFormed = false := by decide
theorem test_ill_ioWrC2 : (Instr.ioWrC2 0x8FE0 0).wellFormed = false := by decide
theorem test_ill_ioRdC12 : (Instr.ioRdC12 0x9430).wellFormed = false := by decide
theorem test_ill_ioWrC12 : (Instr.ioWrC12 0x9020 0).wellFormed = false := by decide
theorem test_ill_rdColor : (Instr.rdColor 0x93FF).wellFormed = false := by decide
theorem test_ill_wrColor : (Instr.wrColor 0x9800 0).wellFormed = false := by decide
theorem test_ill_rdRsv2 : (Instr.rdRsv2 0xA000).wellFormed = false := by decide
theorem test_ill_wrRsv2 : (Instr.wrRsv2 0x97FF 0).wellFormed = false := by decide
theorem test_ill_rdRsv3 : (Instr.rdRsv3 0xC000).wellFormed = false := by decide
theorem test_ill_wrRsv3 : (Instr.wrRsv3 0x9FFF 0).wellFormed = false := by decide
theorem test_ill_rdBasic : (Instr.rdBasic 0xE000).wellFormed = false := by decide
theorem test_ill_wrBasic : (Instr.wrBasic 0xBFFF 0).wellFormed = false := by decide
theorem test_ill_rdKernal : (Instr.rdKernal 0xDFFF).wellFormed = false := by decide
theorem test_ill_wrKernal : (Instr.wrKernal 0x0000 0).wellFormed = false := by decide
theorem test_ill_vfChar : (Instr.vfChar 0x1000).wellFormed = false := by decide
theorem test_ill_vfGap0 : (Instr.vfGap0 0x0FFF).wellFormed = false := by decide
theorem test_ill_vfZp : (Instr.vfZp 0x2400).wellFormed = false := by decide
theorem test_ill_vfGap1A : (Instr.vfGap1A 0x2800).wellFormed = false := by decide
theorem test_ill_vfGap1B : (Instr.vfGap1B 0x3000).wellFormed = false := by decide
theorem test_ill_vfRam : (Instr.vfRam 0x2FFF).wellFormed = false := by decide

/-! ### Decoding: a word of each row, bit by bit as R75, R76 and R73 lay it out (marked E-2, E-3, E-4 where it is a vector of
95_test_vectors.md) -/

-- rw = 1, a[15:10] = 000000: E-2
theorem test_dec_rdZp : decode (.bus 0b1_0000_0000_0000_0000 0) = .ok (.rdZp 0x0000) := by decide
-- rw = 0, a[15:10] = 000000: E-2
theorem test_dec_wrZp : decode (.bus 0b0_0000_0011_1111_1111 0x5A) = .ok (.wrZp 0x03FF 0x5A) := by decide
-- rw = 1, a[15:10] = 000001: E-2
theorem test_dec_rdRsv0A : decode (.bus 0b1_0000_0100_0000_0000 0) = .ok (.rdRsv0A 0x0400) := by decide
theorem test_dec_wrRsv0A : decode (.bus 0b0_0000_0111_1111_1111 1) = .ok (.wrRsv0A 0x07FF 1) := by decide
-- a[15:11] = 00001
theorem test_dec_rdRsv0B : decode (.bus 0b1_0000_1000_0000_0000 0) = .ok (.rdRsv0B 0x0800) := by decide
-- E-2
theorem test_dec_wrRsv0B : decode (.bus 0b0_0000_1111_1111_1111 2) = .ok (.wrRsv0B 0x0FFF 2) := by decide
-- a[15:12] = 0001: E-2
theorem test_dec_rdRam : decode (.bus 0b1_0001_1111_1111_1111 0) = .ok (.rdRam 0x1FFF) := by decide
theorem test_dec_wrRam : decode (.bus 0b0_0001_0000_0000_0000 3) = .ok (.wrRam 0x1000 3) := by decide
-- a[15:13] = 001
theorem test_dec_rdRsv1A : decode (.bus 0b1_0011_1111_1111_1111 0) = .ok (.rdRsv1A 0x3FFF) := by decide
theorem test_dec_wrRsv1A : decode (.bus 0b0_0010_0000_0000_0000 4) = .ok (.wrRsv1A 0x2000 4) := by decide
-- a[15:14] = 01: E-2
theorem test_dec_rdRsv1B : decode (.bus 0b1_0111_1111_1111_1111 0) = .ok (.rdRsv1B 0x7FFF) := by decide
theorem test_dec_wrRsv1B : decode (.bus 0b0_0100_0000_0000_0000 5) = .ok (.wrRsv1B 0x4000 5) := by decide
-- a[15:12] = 1000
theorem test_dec_rdChar : decode (.bus 0b1_1000_0000_0000_0000 0) = .ok (.rdChar 0x8000) := by decide
-- E-2
theorem test_dec_wrChar : decode (.bus 0b0_1000_1111_1111_1111 6) = .ok (.wrChar 0x8FFF 6) := by decide
-- a[15:10] = 100100, a[5:4] = 00: E-2
theorem test_dec_ioRdNone : decode (.bus 0b1_1001_0011_1100_1111 0) = .ok (.ioRdNone 0x93CF) := by decide
theorem test_dec_ioWrNone : decode (.bus 0b0_1001_0000_0000_0000 7) = .ok (.ioWrNone 0x9000 7) := by decide
-- a[5:4] = 01
theorem test_dec_ioRdC1 : decode (.bus 0b1_1001_0001_0001_0000 0) = .ok (.ioRdC1 0x9110) := by decide
-- E-2
theorem test_dec_ioWrC1 : decode (.bus 0b0_1001_0011_0001_0000 8) = .ok (.ioWrC1 0x9310 8) := by decide
-- a[5:4] = 10: E-2
theorem test_dec_ioRdC2 : decode (.bus 0b1_1001_0001_0010_0000 0) = .ok (.ioRdC2 0x9120) := by decide
theorem test_dec_ioWrC2 : decode (.bus 0b0_1001_0001_0010_0000 9) = .ok (.ioWrC2 0x9120 9) := by decide
-- a[5:4] = 11: E-2
theorem test_dec_ioRdC12 : decode (.bus 0b1_1001_0011_1111_1111 0) = .ok (.ioRdC12 0x93FF) := by decide
theorem test_dec_ioWrC12 : decode (.bus 0b0_1001_0001_0011_0000 10) = .ok (.ioWrC12 0x9130 10) := by decide
-- a[15:10] = 100101: E-2
theorem test_dec_rdColor : decode (.bus 0b1_1001_0100_0000_0000 0) = .ok (.rdColor 0x9400) := by decide
-- E-2
theorem test_dec_wrColor : decode (.bus 0b0_1001_0111_1111_1111 11) = .ok (.wrColor 0x97FF 11) := by decide
-- a[15:11] = 10011: E-2
theorem test_dec_rdRsv2 : decode (.bus 0b1_1001_1000_0000_0000 0) = .ok (.rdRsv2 0x9800) := by decide
theorem test_dec_wrRsv2 : decode (.bus 0b0_1001_1111_1111_1111 12) = .ok (.wrRsv2 0x9FFF 12) := by decide
-- a[15:13] = 101
theorem test_dec_rdRsv3 : decode (.bus 0b1_1010_0000_0000_0000 0) = .ok (.rdRsv3 0xA000) := by decide
-- E-2
theorem test_dec_wrRsv3 : decode (.bus 0b0_1011_1111_1111_1111 13) = .ok (.wrRsv3 0xBFFF 13) := by decide
-- a[15:13] = 110: E-2
theorem test_dec_rdBasic : decode (.bus 0b1_1100_0000_0000_0000 0) = .ok (.rdBasic 0xC000) := by decide
theorem test_dec_wrBasic : decode (.bus 0b0_1101_1111_1111_1111 14) = .ok (.wrBasic 0xDFFF 14) := by decide
-- a[15:13] = 111: E-2
theorem test_dec_rdKernal : decode (.bus 0b1_1111_1111_1111_1111 0) = .ok (.rdKernal 0xFFFF) := by decide
theorem test_dec_wrKernal : decode (.bus 0b0_1110_0000_0000_0000 15) = .ok (.wrKernal 0xE000 15) := by decide
-- va[13:12] = 00, 01: E-3
theorem test_dec_vfChar : decode (.vf 0b00_0000_0000_0000) = .ok (.vfChar 0x0000) := by decide
theorem test_dec_vfGap0 : decode (.vf 0b01_1111_1111_1111) = .ok (.vfGap0 0x1FFF) := by decide
-- va[13:10] = 1000, 1001: E-3
theorem test_dec_vfZp : decode (.vf 0b10_0011_1111_1111) = .ok (.vfZp 0x23FF) := by decide
theorem test_dec_vfGap1A : decode (.vf 0b10_0100_0000_0000) = .ok (.vfGap1A 0x2400) := by decide
-- va[13:11] = 101, va[13:12] = 11: E-3
theorem test_dec_vfGap1B : decode (.vf 0b10_1111_1111_1111) = .ok (.vfGap1B 0x2FFF) := by decide
theorem test_dec_vfRam : decode (.vf 0b11_0000_0000_0000) = .ok (.vfRam 0x3000) := by decide
-- op in bits 31:28, fields as R73 names them: E-4 but where a comment says otherwise
theorem test_dec_tick : decode (.host 0x00000000 {}) = .ok .tick := by decide
theorem test_dec_exec : decode (.host 0x10000001 { us := 1000 }) = .ok (.exec .instrumented 1000) := by decide
theorem test_dec_exec_freeRun : decode (.host 0x10000000 { us := 7 }) = .ok (.exec .freeRun 7) := by decide
theorem test_dec_reset : decode (.host 0x20000000 {}) = .ok .reset := by decide
theorem test_dec_keyDown : decode (.host 0x3000000D {}) = .ok (.keyDown 0x0D) := by decide
theorem test_dec_keyUp : decode (.host 0x40000041 {}) = .ok (.keyUp 0x41) := by decide
-- op = 5, operand U (R73)
theorem test_dec_kbdAdvance : decode (.host 0x50000000 { us := 10000 }) = .ok (.kbdAdvance 10000) := by decide
theorem test_dec_scan : decode (.host 0x60000018 {}) = .ok (.scan 0b00011000) := by decide
-- L1-5
theorem test_dec_quickload : decode (.host 0x70000000 { payload := [0x00, 0x10, 0xAA, 0xBB] }) =
    .ok (.quickload [0x00, 0x10, 0xAA, 0xBB]) := by decide
-- P4, line 2
theorem test_dec_cartInsert : decode (.host 0x80000000 { payload := [0x11, 0x22] }) = .ok (.cartInsert [0x11, 0x22]) := by decide
-- bank 4 in bits 6:3, layer bit 2, acc bit 1, space bit 0
theorem test_dec_mapRegion : decode (.host 0x90000020 { base := 0x1000, len := 0x100 }) =
    .ok (.mapRegion .cpu .ro .l0 4 0x1000 0x100 0) := by decide
-- P5, line 6: bank 1, layer 1, RW
theorem test_dec_mapRegion_layer : decode (.host 0x9000000E { base := 0x1800, len := 0x100 }) =
    .ok (.mapRegion .cpu .rw .l1 1 0x1800 0x100 0) := by decide
theorem test_dec_keyRegister : decode (.host 0xA0005441 {}) = .ok (.keyRegister 0x41 4 2 0b01) := by decide
theorem test_dec_modRegister : decode (.host 0xB0000016 {}) = .ok (.modRegister 0 3 1) := by decide
theorem test_dec_memRead : decode (.host 0xC0013000 {}) = .ok (.memRead .vid 0x3000) := by decide
theorem test_dec_memWrite : decode (.host 0xD0411000 {}) = .ok (.memWrite .cpu 0x1000 0x41) := by decide
theorem test_dec_vfetch : decode (.host 0xE0000005 {}) = .ok (.vfetch 0x0005) := by decide
theorem test_dec_discard : decode (.host 0xF0000000 {}) = .ok .discard := by decide
-- a set bit that the row does not name (E-4)
theorem test_dec_unnamed_exec : decode (.host 0x10000002 {}) = .error .unnamedBit := by decide
theorem test_dec_unnamed_reset : decode (.host 0x20000001 {}) = .error .unnamedBit := by decide
theorem test_dec_table_bus : decodeTableWord 24 0x17FFF = some (.rdRsv1B 0x7FFF) := by decide
theorem test_dec_table_vf : decodeTableWord 16 0x2FFF = some (.vfGap1B 0x2FFF) := by decide
theorem test_dec_table_host : decodeTableWord 32 0xA0005441 = some (.keyRegister 0x41 4 2 1) := by decide

/-! ### The demo block (95_test_vectors.md section 0) and the stub chips -/

/-- The parameters of the vectors' common start state, with a hold time where a vector gives one. -/
def demoParams (hold : Nat := 0) (exp3 : Bool := false) : Params :=
  { vicSel := [], expPresent := #v[false, false, false, exp3], kbdHoldUs := hold, sampleRate := 44100, volume := 7,
    audioCap := 4, audioMax := 4096, debugHook := false, pinReset := { addr := 0, data := 0, rw := .rd, other := 0 } }

/-- The block right after construction. -/
def demo : State := State.constructed (demoParams)

/-- The block with the byte 0x41 in RAM[0]. -/
def demo41 : State := { demo with mem := [(cellKey .ram 0, 0x41)] }

/-- The stubs of section 0: the CPU keeps the pins it finds, but raises both lines (T-16); IOC1 gives 0x11 and IOC2 `d2`; the VIC
gives 0x33. `i1` and `i2` are the interrupt outputs. IOC2's state is the latch L, and its row port is its data where `d2` is
none. The VIC's state counts its samples: sample `n` in the tick that starts at `n`, none at 0. -/
def stub (i1 i2 : Bool) (d2 : Option Byte) : Chips :=
  { cpuInit := 0
    cpuTick := fun c p => (c, { p with irq := true, nmi := true })
    cpuReset := fun c => c
    ioc1Init := 0
    ioc1Tick := fun c p => (c + p.data.toNat, { data := 0x11, irqOut := i1, colOut := 0xFF })
    ioc1Reset := fun c => c
    ioc2Init := 0xFF
    ioc2Tick := fun c p =>
      let l := if p.cs && p.rw == .wr then p.data.toNat else c
      (l, { data := d2.getD p.rowPort, irqOut := i2, colOut := BitVec.ofNat 8 l })
    ioc2Reset := fun _ => 0xFF
    vicInit := 0
    vicTick := fun c _ _ => (if c = 0 then 0 else c + 1, { data := 0x33, sampleReady := c != 0, sample := c })
    vicReset := fun _ => 0 }

/-- A block with stub chips fresh: zero states, IOC2's latch 0xFF, RAM[0] = 0x41. -/
def bench : State := { demo41 with cpu := 0, ioc1 := 0, ioc2 := 0xFF, vic := 0 }

/-- That block with both interrupt lines up. -/
def linesUp : State := { bench with pins := { bench.pins with irq := true, nmi := true } }

/-! ### One bus cycle (vectors T) -/

-- T-1
theorem test_T1_data : (bench.memReadCycle (stub false false none) 0x1000).pins.data = 0x41 := by decide
-- T-1, T-16: both lines clear at the end of the tick
theorem test_T1_lines : (linesUp.memReadCycle (stub false false none) 0x1000).pins.irq = false ∧
    (linesUp.memReadCycle (stub false false none) 0x1000).pins.nmi = false := by decide
-- T-2
theorem test_T2_write : (bench.memWriteCycle (stub false false none) 0x1234 0x56).bankByte .ram 0x234 = 0x56 := by
  have h : (((bench.driveWrite 0x1234 0x56).clearLines).writeKey .cpu 0x1234) = some (cellKey .ram 0x234) := by decide
  rw [State.bankByte, State.memWriteCycle, State.chipSteps_mem]
  exact (congrArg (fun s => Memory.read s.mem (cellKey .ram 0x234)) (State.memWrite_some 0x56 h)).trans
    (Memory.read_write_self _ _ _)
-- T-3: no region of the CPU space lets a write to BASIC through
theorem test_T3_dropped : (bench.memWriteCycle (stub false false none) 0xC000 0x56).mem = bench.mem := by
  rw [State.memWriteCycle, State.chipSteps_mem]
  have h : (((bench.driveWrite 0xC000 0x56).clearLines).writeKey .cpu 0xC000) = none := by decide
  exact (congrArg State.mem (State.memWrite_none 0x56 h)).trans rfl
-- T-4
theorem test_T4_ioc1 : (bench.ioReadCycle (stub false false (some 0x22)) true false 0x9110).pins.data = 0x11 := by rfl
-- T-5
theorem test_T5_ioc2 : (bench.ioReadCycle (stub false false (some 0x22)) false true 0x9120).pins.data = 0x22 := by rfl
-- T-6: IOC2 is after IOC1
theorem test_T6_both : (bench.ioReadCycle (stub false false (some 0x22)) true true 0x9130).pins.data = 0x22 := by rfl
-- T-7: the VIC is last
theorem test_T7_vic : (State.ioReadCycle (stub false false (some 0x22)) true true 0x9130
    { bench with params := { bench.params with vicSel := [0x9130] } }).pins.data = 0x33 := by rfl
-- T-10: a write leaves the CPU's byte on the bus, and IOC1 received it
theorem test_T10_data : (bench.ioWriteCycle (stub false false none) true true 0x9130 0x0F).pins.data = 0x0F := by decide
theorem test_T10_ioc1 : (bench.ioWriteCycle (stub false false none) true true 0x9130 0x0F).ioc1 = 0x0F := by decide
-- T-11
theorem test_T11_memory : (bench.ioWriteCycle (stub false false none) true false 0x9110 0x7F).mem = bench.mem := by decide
-- T-12
theorem test_T12_irq : (bench.memReadCycle (stub false true none) 0x1000).pins.irq = true := by decide
theorem test_T12_nmi : (bench.memReadCycle (stub false true none) 0x1000).pins.nmi = false := by decide
-- T-13
theorem test_T13_irq : (bench.memReadCycle (stub true false none) 0x1000).pins.irq = false := by decide
theorem test_T13_nmi : (bench.memReadCycle (stub true false none) 0x1000).pins.nmi = true := by decide
-- T-16: the CPU's own lines are cleared
theorem test_T16_tick : (State.tick (stub false false none) bench).pins.irq = false := by decide
-- T-17: the chips tick and interrupt outside the window
theorem test_T17_nmi : (bench.memReadCycle (stub true false none) 0x8000).pins.nmi = true := by rfl
-- T-18
theorem test_T18_cols : (State.memReadCycle (stub false false none) 0x1000 { bench with ioc2 := 0xFB }).cols = 0x04 := by decide
-- K-10: row 3 of column 0 is pressed; the write latches the column, the next read sees the row
theorem test_K10_latch : (bench.ioWriteCycle (stub false false none) false true 0x9120 0xFE).cols = 0x01 := by decide
theorem test_K10_rows : (State.ioReadCycle (stub false false none) false true 0x9120
    { bench with cols := 0x01, kbd := bench.kbd.press { col := 0, row := 3 } }).pins.data = 0xF7 := by rfl
-- H-10: the fourth sample fills the buffer
theorem test_H10_full : (State.audioPush 4 { bench with audio := { buf := [1, 2, 3, 0], pos := 3 } }).trace =
    [.audioSink [1, 2, 3, 4] 4] := by decide
theorem test_H10_pos : (State.audioPush 4 { bench with audio := { buf := [1, 2, 3, 0], pos := 3 } }).audio.pos = 0 := by decide
theorem test_H10_fifth : (State.audioPush 5 { bench with audio := { buf := [1, 2, 3, 4], pos := 0 } }).audio =
    { buf := [5, 2, 3, 4], pos := 1 } := by decide
-- H-10 in a tick
theorem test_H10_tick : (State.memReadCycle (stub false false none) 0x1000
    { bench with vic := 7, audio := { buf := [1, 2, 3, 0], pos := 3 } }).trace = [.audioSink [1, 2, 3, 7] 4] := by decide

/-! ### The memory map (vectors M, L1, V) -/

-- M-1, M-2: FILL where no region covers, in the I/O window too
theorem test_M1_fill : [(0x0400 : Addr), 0x9800, 0xA000, 0x9000].map (demo.memRead .cpu) = [0xFF, 0xFF, 0xFF, 0xFF] := by decide
-- M-5
theorem test_M5_fill : [(0x1000 : Addr), 0x2400, 0x4000].map (demo.memRead .vid) = [0xFF, 0xFF, 0xFF] := by decide
-- M-3, M-4: the VID space shares RAM, ZP and CHAR
theorem test_M3_alias : demo.effective .vid 0x3234 = some (systemRegion 0x3000 .ram .ro) := by decide
theorem test_M4_zp : demo.effective .vid 0x2010 = some (systemRegion 0x2000 .zp .ro) := by decide
theorem test_M4_char : demo.effective .vid 0x0123 = some (systemRegion 0x0000 .char .ro) := by decide
-- M-6: an expansion bank is in the CPU space only
theorem test_M6_cpu : effectiveIn (cpuLayout #v[true, false, false, false]) 0x2000 = some (expRegion 0x2000 .exp0) := by decide
-- M-7
theorem test_M7_overlap : ∃ t, exec (.cartInsert [0x11]) (State.constructed (demoParams (exp3 := true))) = .next t ∧
    t.result = .refused .cartOverlap := ⟨_, rfl, rfl⟩
-- M-8: the cartridge's region is two bytes long, read-only
theorem test_M8_region : (demo.cartInsert [0x11, 0x22]).effective .cpu 0xA001 = some (cartRegion 2) := by rfl
theorem test_M8_beyond : (demo.cartInsert [0x11, 0x22]).effective .cpu 0xA002 = none := by rfl
-- M-9
theorem test_M9_empty : (demo.cartInsert []).result = .refused .cartSize := by rfl
-- M-10: (d), (a), (b), no bank, an absent bank
theorem test_M10_d : (demo.admits .cpu ⟨0x1800, 0x100, .ram, 0, .rw, .l1⟩) = false := by decide
theorem test_M10_a : (demo.admits .cpu ⟨0xFF00, 0x200, .ram, 0, .rw, .l0⟩) = false := by decide
theorem test_M10_b : (demo.admits .cpu ⟨0x0400, 0x401, .zp, 0, .rw, .l0⟩) = false := by decide
theorem test_M10_noBank : ∃ t, exec (.mapRegion .cpu .rw .l0 11 0x0400 1 0) demo = .next t ∧ t.refused = true := ⟨_, rfl, rfl⟩
theorem test_M10_absent : (demo.admits .cpu ⟨0x0400, 1, .exp2, 0, .rw, .l0⟩) = false := by decide
-- M-11, P5 line 7: an alias of RAM
theorem test_M11_admitted : (demo.admits .cpu ⟨0x0400, 0x400, .ram, 0, .rw, .l0⟩) = true := by decide
-- V-1 and V-2: character 0x3C of CHAR[5] below, color nibble 6 above; RAM[0x405] = 0x81 with the color of bits 9:0
theorem test_V1_fetch : (State.vfetch { demo with mem := [(cellKey .char 5, 0x3C), (cellKey .color 5, 0x06)] } 0 0x0005).extractLsb' 0 12 =
    0x63C := by
  unfold State.vfetch
  generalize (Config.draw _ _).extractLsb' 0 4 = x
  revert x; decide
theorem test_V2_fetch : (State.vfetch { demo with mem := [(cellKey .ram 0x405, 0x81), (cellKey .color 5, 0x06)] } 0 0x3405).extractLsb' 0 12 =
    0x681 := by
  unfold State.vfetch
  generalize (Config.draw _ _).extractLsb' 0 4 = x
  revert x; decide
-- V-4
theorem test_V4_cut : videoAddr 0x7005 = 0x3005 := by decide

/-! ### Host operations (vectors H, L1) -/

-- H-1, L1-8
theorem test_H1_ticks : [0, 1, 2, 999, 1000, 16667, 20000, 1000000, 3600000000].map ticksFor =
    [0, 1, 2, 1107, 1108, 18473, 22168, 1108404, 3990254400] := by decide
-- L1-7
theorem test_L17_exec0 : ∃ t, exec (.exec .freeRun 0) demo = .next t ∧ t.result = .count 0 := ⟨_, rfl, rfl⟩
-- H-3
theorem test_H3_noHook : ∃ t, exec (.exec .instrumented 1000) demo = .next t ∧ t.result = .refused .noDebugHook := ⟨_, rfl, rfl⟩
-- H-5
theorem test_H5_header : ∃ t, exec (.quickload [0x00, 0x10]) demo = .next t ∧ t.result = .flag true ∧ t.mem = [] := ⟨_, rfl, rfl, rfl⟩
theorem test_H5_empty : ∃ t, exec (.quickload []) demo = .next t ∧ t.result = .flag false := ⟨_, rfl, rfl⟩
-- L1-5: the header is little-endian
theorem test_L15_base : loadAddress 0x00 0x10 = 0x1000 := by decide
-- H-6: 0xFFFF is KERNAL, read-only, and the next address is 0x0000, in ZP
theorem test_H6_wrap : [loadAddress 0xFF 0xFF, loadAddress 0xFF 0xFF + 1].map (demo.writeKey .cpu) =
    [none, some (cellKey .zp 0)] := by decide
-- H-7: 0x93FF is in the window, 0x9400 is COLOR
theorem test_H7_window : [loadAddress 0xFF 0x93, loadAddress 0xFF 0x93 + 1].map (demo.writeKey .cpu) =
    [none, some (cellKey .color 0)] := by decide
-- H-8
theorem test_H8_discarded : ∃ t, exec .tick demo.discard = .next t ∧ t.refused = true ∧ t.result = .refused .discarded :=
  ⟨_, rfl, rfl, rfl⟩
-- E-4: an unnamed bit is refused in a step
theorem test_E4_refused : ∃ t, step { demo with inbox := [.host 0x20000001 {}] } = .next t ∧ t.refused = true := ⟨_, rfl, rfl⟩
-- I-3, I-5
theorem test_I3_cols : (State.resetBlock (stub false false none) { linesUp with cols := 1 }).cols = 0 := by rfl
theorem test_I5_pos : (State.resetBlock (stub false false none) { bench with audio := { buf := [1, 2, 3, 4], pos := 3 } }).audio =
    { buf := [1, 2, 3, 4], pos := 0 } := by rfl

/-! ### The keyboard (vectors K, L1-6) -/

/-- The keyboard of K-1 to K-8, by its four registrations. -/
def keys : Keyboard :=
  (((demo.kbd.bindModifier 0 { col := 3, row := 1 }).registerKey 0x0D ⟨{ col := 1, row := 0 }, 0⟩).registerKey 0x41
    ⟨{ col := 4, row := 2 }, 1⟩).registerKey 0x42 ⟨{ col := 4, row := 2 }, 0⟩

-- K-1
theorem test_K1_scan : [(0x08 : Byte), 0x10, 0x18, 0xFF, 0x00, 0xE7].map (keys.keyDown 0x41).scan =
    [0xFD, 0xFB, 0xF9, 0xF9, 0xFF, 0xFF] := by decide
-- K-2
theorem test_K2_released : (((keys.keyDown 0x41).keyUp 0 0x41).scan 0xFF) = 0xFF := by decide
-- K-3
theorem test_K3_scan : (keys.keyDown 0x42).scan 0x08 = 0xFF := by decide
-- K-4
theorem test_K4_shared : ((((keys.keyDown 0x41).keyDown 0x42).keyUp 0 0x42).scan 0xFF) = 0xFD := by decide
-- K-5
theorem test_K5_unregistered : keys.keyDown 0x7F = keys := by decide
-- K-6
theorem test_K6_scan : [(0x21 : Byte), 0x01, 0x02].map
    ((demo.kbd.press { col := 0, row := 3 }).press { col := 5, row := 3 }).scan = [0xF7, 0xF7, 0xFF] := by decide
-- K-7
theorem test_K7_pending : ((((keys.keyDown 0x0D).advance 20000 10000).keyUp 20000 0x0D).advance 20000 9999).cell
    { col := 1, row := 0 } = { pressed := true, age := 19999, pend := true } := by decide
theorem test_K7_cleared : (((((keys.keyDown 0x0D).advance 20000 10000).keyUp 20000 0x0D).advance 20000 9999).advance 20000 1).cell
    { col := 1, row := 0 } = { pressed := false, age := 20000, pend := false } := by decide
-- K-9
theorem test_K9_closed : ∃ t, exec (.keyRegister 0x20 0 0 0) { demo with configPhase := false } = .next t ∧
    t.result = .refused .configClosed := ⟨_, rfl, rfl⟩
-- L1-6
theorem test_L16_down : (keys.keyDown 0x0D).scan 0x02 = 0xFE := by decide
theorem test_L16_up : ((keys.keyDown 0x0D).keyUp 0 0x0D).scan 0x02 = 0xFF := by decide

/-! ### Witnesses: for every obligation with hypotheses, a state and operands that meet them, at the ends of their ranges -/

/-- A block with no cell listed has the invariant when its tables, its keyboard and its buffer are in order. -/
theorem inv_of {s : State} (hm : s.mem = []) (hc : s.cartLen ≤ cartMax) (ht : TableOk s.params.expPresent s.regionsCpu)
    (hv : TableOk s.params.expPresent s.regionsVid) (hk : AssocSorted s.kbd.keymap)
    (hp : ∀ x, (s.kbd.cell x).pend = false) (hb : s.params.Admitted) (ha : s.audio.buf.length = s.params.audioCap)
    (hi : s.audio.pos < s.params.audioCap) : s.Inv where
  memCanonical := by rw [hm]; exact ⟨List.Pairwise.nil, fun _ h => absurd h List.not_mem_nil⟩
  memInside := by rw [hm]; exact fun _ h => absurd h List.not_mem_nil
  cartFits := hc
  cpuTable := ht
  vidTable := hv
  keymapSorted := hk
  pendYoung := fun x h => by rw [hp x] at h; cases h
  audioBounded := hb
  audioLength := ha
  audioInside := hi

/-- Nothing is pending right after construction. -/
theorem initial_pend (x : Coord) : (Keyboard.initial.cell x).pend = false := by simp [Keyboard.initial, Keyboard.cell]

/-- The demo block with one region more in the CPU space. -/
def withRegion (r : Region) : State := { demo with regionsCpu := demo.regionsCpu ++ [r] }

/-- P5, line 1: the KERNAL shadow over RAM. -/
def shadow : Region := { base := 0x1000, len := 0x100, bank := .kernal, off := 0, acc := .ro, layer := .l0 }

/-- P5, line 7: the RAM alias. -/
def ramAlias : Region := { base := 0x0400, len := 0x400, bank := .ram, off := 0, acc := .rw, layer := .l0 }

theorem witness_inv : demo.Inv :=
  inv_of rfl (by decide) (by decide) (by decide) (by decide) initial_pend (by decide) rfl (by decide)

theorem witness_inv_shadow : (withRegion shadow).Inv :=
  inv_of rfl (by decide) (by decide) (by decide) (by decide) initial_pend (by decide) rfl (by decide)

theorem witness_inv_alias : (withRegion ramAlias).Inv :=
  inv_of rfl (by decide) (by decide) (by decide) (by decide) initial_pend (by decide) rfl (by decide)

/-- DecodeEncodeRoundTrip: both ends of every row of R75 below and above the window, on a read and on a write. -/
theorem witness_DecodeEncodeRoundTrip_bus :
    [Instr.rdZp 0x0000, .rdZp 0x03FF, .rdRsv0A 0x0400, .rdRsv0A 0x07FF, .rdRsv0B 0x0800, .rdRsv0B 0x0FFF, .rdRam 0x1000,
     .rdRam 0x1FFF, .rdRsv1A 0x2000, .rdRsv1A 0x3FFF, .rdRsv1B 0x4000, .rdRsv1B 0x7FFF, .rdChar 0x8000, .rdChar 0x8FFF,
     .ioRdNone 0x9000, .ioRdC1 0x901F, .ioRdC2 0x93E0, .ioRdC12 0x93FF, .rdColor 0x9400, .rdColor 0x97FF, .rdRsv2 0x9800,
     .rdRsv2 0x9FFF, .rdRsv3 0xA000, .rdRsv3 0xBFFF, .rdBasic 0xC000, .rdBasic 0xDFFF, .rdKernal 0xE000,
     .rdKernal 0xFFFF].all Instr.wellFormed = true ∧
    [Instr.wrZp 0x0000 1, .wrZp 0x03FF 2, .wrRsv0A 0x0400 3, .wrRsv0A 0x07FF 4, .wrRsv0B 0x0800 5, .wrRsv0B 0x0FFF 6,
     .wrRam 0x1000 7, .wrRam 0x1FFF 8, .wrRsv1A 0x2000 9, .wrRsv1A 0x3FFF 10, .wrRsv1B 0x4000 11, .wrRsv1B 0x7FFF 12,
     .wrChar 0x8000 13, .wrChar 0x8FFF 14, .ioWrNone 0x93CF 15, .ioWrC1 0x9010 16, .ioWrC2 0x9020 17, .ioWrC12 0x9030 18,
     .wrColor 0x9400 19, .wrColor 0x97FF 20, .wrRsv2 0x9800 21, .wrRsv2 0x9FFF 22, .wrRsv3 0xA000 23, .wrRsv3 0xBFFF 24,
     .wrBasic 0xC000 25, .wrBasic 0xDFFF 26, .wrKernal 0xE000 27, .wrKernal 0xFFFF 28].all Instr.wellFormed = true := by decide

/-- DecodeEncodeRoundTrip: both ends of every row of R76, and HOST terms. -/
theorem witness_DecodeEncodeRoundTrip_rest :
    [Instr.vfChar 0x0000, .vfChar 0x0FFF, .vfGap0 0x1000, .vfGap0 0x1FFF, .vfZp 0x2000, .vfZp 0x23FF, .vfGap1A 0x2400,
     .vfGap1A 0x27FF, .vfGap1B 0x2800, .vfGap1B 0x2FFF, .vfRam 0x3000, .vfRam 0x3FFF, .tick, .exec .instrumented 1000,
     .mapRegion .vid .rw .l1 15 0xFFFF 0x10000 7, .keyRegister 0xFF 7 7 3].all Instr.wellFormed = true := by decide

/-- DecodedIsWellFormed: a frame of each format. -/
theorem witness_DecodedIsWellFormed : decode (.bus 0x1FFFF 0) = .ok (.rdKernal 0xFFFF) ∧
    decode (.vf 0x3FFF) = .ok (.vfRam 0x3FFF) ∧ decode (.host 0xF0000000 {}) = .ok .discard := by decide

/-- EveryBusWordMatchesOneRow and EveryVideoAddressMatchesOneRow: rows match at their ends. -/
theorem witness_rows : busRows.any (fun r => r.matches 0x1FFFF) = true ∧ busRows.any (fun r => r.matches 0x00000) = true ∧
    vfRows.any (fun r => r.matches 0x3FFF) = true ∧ vfRows.any (fun r => r.matches 0x0000) = true := by decide

/-- StepRunsDecodedInstruction: an input that decodes, and no input. -/
theorem witness_StepRunsDecodedInstruction :
    ({ demo with inbox := [.host 0x60000018 {}, .vf 0] } : State).inbox = .host 0x60000018 {} :: [.vf 0] ∧
    decode (.host 0x60000018 {}) = .ok (.scan 0x18) ∧ demo.inbox = [] := by decide

/-- UndecodableFrameIsRefused: an input that does not decode. -/
theorem witness_UndecodableFrameIsRefused :
    ({ demo with inbox := [.host 0x10000002 { us := 5 }] } : State).inbox = .host 0x10000002 { us := 5 } :: [] ∧
    decode (.host 0x10000002 { us := 5 }) = .error .unnamedBit := by decide

/-- WriteThenReadReturnsWritten: both ends of main RAM, and a layer-0 alias of it. -/
theorem witness_WriteThenReadReturnsWritten : demo.valid = true ∧
    demo.effective .cpu 0x1000 = some (systemRegion 0x1000 .ram .rw) ∧
    demo.effective .cpu 0x1FFF = some (systemRegion 0x1000 .ram .rw) ∧
    (withRegion ramAlias).effective .cpu 0x0400 = some ramAlias ∧ ramAlias.acc = .rw := by decide

/-- ReadOnlyWriteIsDropped: the KERNAL's ends, and RAM through the VID space. -/
theorem witness_ReadOnlyWriteIsDropped : demo.valid = true ∧
    demo.effective .cpu 0xE000 = some (systemRegion 0xE000 .kernal .ro) ∧
    demo.effective .cpu 0xFFFF = some (systemRegion 0xE000 .kernal .ro) ∧
    demo.effective .vid 0x3FFF = some (systemRegion 0x3000 .ram .ro) ∧ (systemRegion 0x3000 .ram .ro).acc = .ro := by decide

/-- LayerZeroHasPriority: the shadow's ends. -/
theorem witness_LayerZeroHasPriority : (withRegion shadow).Inv ∧ (withRegion shadow).valid = true ∧
    shadow ∈ (withRegion shadow).regions .cpu ∧ systemRegion 0x1000 .ram .rw ∈ (withRegion shadow).regions .cpu ∧
    shadow.layer = .l0 ∧ (systemRegion 0x1000 .ram .rw).layer = .l1 ∧ shadow.acc = .ro ∧
    inRange shadow.base shadow.len 0x1000 ∧ inRange shadow.base shadow.len 0x10FF ∧
    inRange 0x1000 (systemRegion 0x1000 .ram .rw).len 0x1000 ∧ inRange 0x1000 (systemRegion 0x1000 .ram .rw).len 0x10FF := by
  refine ⟨witness_inv_shadow, ?_⟩
  unfold inRange
  decide

/-- MemReadFollowsTheTable: a covered address, and uncovered ones at the gap's ends. -/
theorem witness_MemReadFollowsTheTable : demo.valid = true ∧
    demo.effective .cpu 0x03FF = some (systemRegion 0x0000 .zp .rw) ∧
    (∀ r ∈ demo.regions .cpu, ¬ inRange r.base r.len 0x0400) ∧ (∀ r ∈ demo.regions .cpu, ¬ inRange r.base r.len 0x0FFF) := by
  unfold inRange
  decide

/-- EffectiveRegionIsLowestLayer: a state with two layers. -/
theorem witness_EffectiveRegionIsLowestLayer : (withRegion shadow).Inv ∧
    (withRegion shadow).effective .cpu 0x10FF = some shadow ∧
    (withRegion shadow).effective .cpu 0x1100 = some (systemRegion 0x1000 .ram .rw) :=
  ⟨witness_inv_shadow, by decide, by decide⟩

/-- WriteChangesOneCell: a written cell, and a write that reaches none. -/
theorem witness_WriteChangesOneCell : demo.Inv ∧ demo.valid = true ∧
    (∃ r, demo.effective .cpu 0x1FFF = some r ∧ r.acc = .rw ∧ r.bank = .ram ∧ r.off + (0x1FFF - r.base.toNat) = 0xFFF) ∧
    demo.effective .cpu 0xFFFF = some (systemRegion 0xE000 .kernal .ro) :=
  ⟨witness_inv, rfl, ⟨systemRegion 0x1000 .ram .rw, by decide⟩, by decide⟩

/-- AliasesShareCells: vector M-3, and the alias of M-11 in one space. -/
theorem witness_AliasesShareCells : demo.valid = true ∧
    demo.effective .cpu 0x1234 = some (systemRegion 0x1000 .ram .rw) ∧
    demo.effective .vid 0x3234 = some (systemRegion 0x3000 .ram .ro) ∧ 0x1234 - 0x1000 = 0x3234 - 0x3000 ∧
    (withRegion ramAlias).effective .cpu 0x07FF = some ramAlias ∧
    (withRegion ramAlias).effective .cpu 0x13FF = some (systemRegion 0x1000 .ram .rw) ∧ 0x07FF - 0x0400 = 0x13FF - 0x1000 := by
  decide

/-- CanonicalMemoryIsDetermined: a memory with one cell listed. -/
theorem witness_CanonicalMemoryIsDetermined : Memory.wf [(0x2000, Config.powerOn 0x2000 + 1)] := by
  refine ⟨List.pairwise_singleton _ _, fun c hc => ?_⟩
  rw [List.mem_singleton.mp hc]
  generalize Config.powerOn 0x2000 = v
  revert v
  decide

/-- MapRegionAdmission: the alias of M-11 fits; no bank has the id 11 (M-10). -/
theorem witness_MapRegionAdmission : demo.Inv ∧ demo.valid = true ∧
    (Bank.ram.id = (1 : BitVec 4).toNat ∧ Bank.ram.present demo.params.expPresent = true ∧ 1 ≤ 0x400 ∧
      (0x0400 : Addr).toNat + 0x400 ≤ 0x10000 ∧ 0 + 0x400 ≤ Bank.ram.size demo.cartLen ∧
      ∀ q ∈ demo.regions .cpu, q.layer = .l0 → ∀ a, ¬ (inRange q.base q.len a ∧ inRange 0x0400 0x400 a)) ∧
    ∀ b : Bank, b.id ≠ (11 : BitVec 4).toNat := by
  refine ⟨witness_inv, rfl, ⟨rfl, rfl, by decide, by decide, by decide, fun q hq hl => absurd hl ?_⟩, fun b => by cases b <;> decide⟩
  revert q
  decide

/-- MapRegionAdmission: a clash on the layer (M-10), at the first and the last shared address. -/
theorem witness_MapRegionAdmission_clash : systemRegion 0x1000 .ram .rw ∈ demo.regions .cpu ∧
    (systemRegion 0x1000 .ram .rw).layer = .l1 ∧ inRange 0x1000 (systemRegion 0x1000 .ram .rw).len 0x1800 ∧
    inRange 0x1800 0x100 0x1800 ∧ inRange 0x1800 0x100 0x18FF := by
  unfold inRange
  decide

/-- CartInsertRefusals: an empty cartridge, one too long, one beside a fitted EXP3, and one under a host's region. -/
theorem witness_CartInsertRefusals : demo.valid = true ∧ ([] : List Byte).length = 0 ∧
    0x2000 < (List.replicate 0x2001 (0 : Byte)).length ∧
    (State.constructed (demoParams (exp3 := true))).params.expPresent[3] = true ∧
    1 ≤ (List.replicate 0x2000 (0 : Byte)).length ∧ (List.replicate 0x2000 (0 : Byte)).length ≤ 0x2000 ∧
    ∃ q ∈ (withRegion { ramAlias with base := 0xA000 }).regionsCpu, q.isCart = false ∧ q.layer = .l0 ∧
      ∃ a, inRange q.base q.len a ∧ inRange 0xA000 1 a := by
  refine ⟨rfl, rfl, by rw [List.length_replicate]; decide, rfl, by rw [List.length_replicate]; decide,
    by rw [List.length_replicate], { ramAlias with base := 0xA000 }, by decide, by decide, rfl, 0xA000, ?_⟩
  unfold inRange
  decide

/-- CartInsertLoadsAndRegisters: the cartridge of M-8, and the longest. -/
theorem witness_CartInsertLoadsAndRegisters : demo.valid = true ∧ 1 ≤ ([0x11, 0x22] : List Byte).length ∧
    (List.replicate 0x2000 (0x11 : Byte)).length ≤ 0x2000 ∧ demo.params.expPresent[3] = false ∧
    (∀ q ∈ demo.regionsCpu, q.isCart = false → q.layer = .l0 → ∀ a, ¬ (inRange q.base q.len a ∧ inRange 0xA000 0x2000 a)) ∧
    (∀ q ∈ demo.regionsCpu, 1 ≤ q.len) ∧ inRange 0xA000 2 0xA000 ∧ inRange 0xA000 2 0xA001 := by
  refine ⟨rfl, by decide, by rw [List.length_replicate], rfl, fun q hq _ hl => absurd hl ?_, by decide, ?_⟩
  · revert q
    decide
  · unfold inRange
    decide

/-- QuickloadWritesBytes: the lengths where they meet. -/
theorem witness_Quickload : demo.valid = true ∧ ([0x00] : List Byte).length < 2 ∧ 2 ≤ ([0x00, 0x10] : List Byte).length := by
  decide

/-- RegionsChangeOnlyByRegistration, GridChangesOnlyByKeyboardOperations, MarksAreSticky: an operation that gives a next state
and is none of those excepted. -/
theorem witness_Frames : (∃ t, exec .tick demo = .next t) ∧ (∃ t, exec .tick { demo with refused := true } = .next t) ∧
    (∀ sp acc layer id base len off, Instr.tick ≠ .mapRegion sp acc layer id base len off) ∧
    (∀ p, Instr.tick ≠ .cartInsert p) ∧ (∀ code, Instr.tick ≠ .keyDown code) ∧ (∀ code, Instr.tick ≠ .keyUp code) ∧
    (∀ u, Instr.tick ≠ .kbdAdvance u) ∧ (∀ mode e, Instr.tick ≠ .exec mode e) ∧ (∀ m col row, Instr.tick ≠ .modRegister m col row) ∧
    (∀ code col row mask, Instr.tick ≠ .keyRegister code col row mask) ∧ Instr.tick ≠ .discard := by
  refine ⟨⟨_, rfl⟩, ⟨_, rfl⟩, ?_⟩
  simp

/-- RomImagesSurvive: a write of the KERNAL, from construction. -/
theorem witness_RomImagesSurvive : demo.Inv ∧ (∃ t, exec (.wrKernal 0xFFFF 1) demo = .next t) ∧
    (∀ sp, ∀ r ∈ demo.regions sp, r.bank = .char ∨ r.bank = .basic ∨ r.bank = .kernal → r.acc = .ro) ∧
    0x1FFF < Bank.kernal.size 0 := by
  refine ⟨witness_inv, ⟨_, rfl⟩, fun sp => ?_, by decide⟩
  cases sp <;> decide

/-- VideoFetchClasses: each range's ends. -/
theorem witness_VideoFetchClasses : demo.regionsVid = vidLayout ∧
    [(0x0000 : VAddr), 0x0FFF].all (fun va => va &&& 0x3000 == 0x0000) = true ∧
    [(0x1000 : VAddr), 0x1FFF].all (fun va => va &&& 0x3000 == 0x1000) = true ∧
    [(0x2000 : VAddr), 0x23FF].all (fun va => va &&& 0x3C00 == 0x2000) = true ∧
    [(0x2400 : VAddr), 0x27FF].all (fun va => va &&& 0x3C00 == 0x2400) = true ∧
    [(0x2800 : VAddr), 0x2FFF].all (fun va => va &&& 0x3800 == 0x2800) = true ∧
    [(0x3000 : VAddr), 0x3FFF].all (fun va => va &&& 0x3000 == 0x3000) = true :=
  ⟨rfl, by decide⟩

/-- VfetchAnswers, TickIsOneCycle, MemoryReadClasses, MemoryWriteClasses, InterruptLinesAreFresh: a valid block and a class. -/
theorem witness_Cycles : demo.valid = true ∧ Instr.rdKernal 0xFFFF ∈ memReadClasses 0xFFFF ∧
    Instr.wrZp 0x0000 9 ∈ memWriteClasses 0x0000 9 ∧ Instr.ioWrC12 0x9130 9 ∈ busClasses 0x9130 9 := by decide

/-- IoReadClasses, IoWriteClasses, LastSelectedChipDrives, WindowCyclesIgnoreTheMap: the window's ends. -/
theorem witness_Window : demo.valid = true ∧ 0x9000 ≤ (0x9000 : Addr).toNat ∧ (0x93FF : Addr).toNat ≤ 0x93FF ∧
    (Instr.ioRdNone 0x9000, false, false) ∈ ioReadClasses 0x9000 ∧ (Instr.ioWrC12 0x93FF 7, true, true) ∈ ioWriteClasses 0x93FF 7 := by
  decide

/-- ConstructionLayoutReads: each class's ends. -/
theorem witness_ConstructionLayoutReads : demo.valid = true ∧ demo.regionsCpu = cpuLayout demo.params.expPresent ∧
    [(0x0000 : Addr), 0x03FF].all (fun a => (1#1 ++ a) &&& 0x1FC00#17 == 0x10000#17) = true ∧
    [(0x0400 : Addr), 0x07FF].all (fun a => (1#1 ++ a) &&& 0x1FC00#17 == 0x10400#17) = true ∧
    [(0x0800 : Addr), 0x0FFF].all (fun a => (1#1 ++ a) &&& 0x1F800#17 == 0x10800#17) = true ∧
    [(0x1000 : Addr), 0x1FFF].all (fun a => (1#1 ++ a) &&& 0x1F000#17 == 0x11000#17) = true ∧
    [(0x2000 : Addr), 0x3FFF].all (fun a => (1#1 ++ a) &&& 0x1E000#17 == 0x12000#17) = true ∧
    [(0x4000 : Addr), 0x5FFF, 0x6000, 0x7FFF].all (fun a => (1#1 ++ a) &&& 0x1C000#17 == 0x14000#17) = true ∧
    [(0x8000 : Addr), 0x8FFF].all (fun a => (1#1 ++ a) &&& 0x1F000#17 == 0x18000#17) = true ∧
    [(0x9400 : Addr), 0x97FF].all (fun a => (1#1 ++ a) &&& 0x1FC00#17 == 0x19400#17) = true ∧
    [(0x9800 : Addr), 0x9FFF].all (fun a => (1#1 ++ a) &&& 0x1F800#17 == 0x19800#17) = true ∧
    [(0xA000 : Addr), 0xBFFF].all (fun a => (1#1 ++ a) &&& 0x1E000#17 == 0x1A000#17) = true ∧
    [(0xC000 : Addr), 0xDFFF].all (fun a => (1#1 ++ a) &&& 0x1E000#17 == 0x1C000#17) = true ∧
    [(0xE000 : Addr), 0xFFFF].all (fun a => (1#1 ++ a) &&& 0x1E000#17 == 0x1E000#17) = true :=
  ⟨rfl, rfl, by decide⟩

/-- ConstructionLayoutWrites: each class's ends. -/
theorem witness_ConstructionLayoutWrites : demo.valid = true ∧ demo.regionsCpu = cpuLayout demo.params.expPresent ∧
    [(0x0000 : Addr), 0x03FF].all (fun a => (0#1 ++ a) &&& 0x1FC00#17 == 0x00000#17) = true ∧
    [(0x0400 : Addr), 0x07FF].all (fun a => (0#1 ++ a) &&& 0x1FC00#17 == 0x00400#17) = true ∧
    [(0x0800 : Addr), 0x0FFF].all (fun a => (0#1 ++ a) &&& 0x1F800#17 == 0x00800#17) = true ∧
    [(0x1000 : Addr), 0x1FFF].all (fun a => (0#1 ++ a) &&& 0x1F000#17 == 0x01000#17) = true ∧
    [(0x2000 : Addr), 0x3FFF].all (fun a => (0#1 ++ a) &&& 0x1E000#17 == 0x02000#17) = true ∧
    [(0x4000 : Addr), 0x5FFF, 0x6000, 0x7FFF].all (fun a => (0#1 ++ a) &&& 0x1C000#17 == 0x04000#17) = true ∧
    [(0x8000 : Addr), 0x8FFF].all (fun a => (0#1 ++ a) &&& 0x1F000#17 == 0x08000#17) = true ∧
    [(0x9400 : Addr), 0x97FF].all (fun a => (0#1 ++ a) &&& 0x1FC00#17 == 0x09400#17) = true ∧
    [(0x9800 : Addr), 0x9FFF].all (fun a => (0#1 ++ a) &&& 0x1F800#17 == 0x09800#17) = true ∧
    [(0xA000 : Addr), 0xBFFF].all (fun a => (0#1 ++ a) &&& 0x1E000#17 == 0x0A000#17) = true ∧
    [(0xC000 : Addr), 0xDFFF].all (fun a => (0#1 ++ a) &&& 0x1E000#17 == 0x0C000#17) = true ∧
    [(0xE000 : Addr), 0xFFFF].all (fun a => (0#1 ++ a) &&& 0x1E000#17 == 0x0E000#17) = true :=
  ⟨rfl, rfl, by decide⟩

/-- SameTickFetchSeesWrite: vector T-19's addresses. -/
theorem witness_SameTickFetchSeesWrite : demo.valid = true ∧
    demo.effective .cpu 0x1000 = some (systemRegion 0x1000 .ram .rw) ∧ (systemRegion 0x1000 .ram .rw).acc = .rw ∧
    demo.effective .vid ((0x3000 : Addr) &&& 0x3FFF) = some (systemRegion 0x3000 .ram .ro) ∧
    Instr.wrRam 0x1000 0x20 ∈ memWriteClasses 0x1000 0x20 := by decide

/-- AudioPushFlushesWhenFull: position 3 of 4 fills the buffer, position 0 does not. -/
theorem witness_AudioPushFlushesWhenFull : demo.Inv ∧
    ({ demo with audio := { demo.audio with pos := 3 } } : State).Inv ∧
    3 + 1 = demo.params.audioCap ∧ demo.audio.pos + 1 ≠ demo.params.audioCap :=
  ⟨witness_inv, inv_of rfl (by decide) (by decide) (by decide) (by decide) initial_pend (by decide) rfl (by decide), rfl, by decide⟩

/-- KeyDownPresses, KeyUpReleases: a registered key with a bound modifier, its cells and another, and an unregistered code. -/
theorem witness_Keys : ({ demo with kbd := keys } : State).valid = true ∧
    assocFind keys.keymap (0x41 : Byte).toNat = some ⟨{ col := 4, row := 2 }, 1⟩ ∧
    assocFind keys.keymap (0x7F : Byte).toNat = none ∧
    KeyCells keys ⟨{ col := 4, row := 2 }, 1⟩ { col := 4, row := 2 } ∧
    KeyCells keys ⟨{ col := 4, row := 2 }, 1⟩ { col := 3, row := 1 } ∧
    ¬ KeyCells keys ⟨{ col := 4, row := 2 }, 0⟩ { col := 3, row := 1 } := by
  refine ⟨rfl, by decide, by decide, .inl rfl, .inr ⟨0, by decide, by decide⟩, ?_⟩
  unfold KeyCells
  decide

/-- RegistrationBinds, RegistrationRefusedLater: a block in the configuration phase, and one past it. -/
theorem witness_Registration : demo.valid = true ∧ demo.configPhase = true ∧
    ({ demo with configPhase := false } : State).valid = true ∧ ({ demo with configPhase := false } : State).configPhase = false := by
  decide

/-- ConfigurationStaysFixed: an operation past the configuration phase. -/
theorem witness_ConfigurationStaysFixed : ∃ s t : State, exec (.keyDown 0x41) s = .next t ∧ s.configPhase = false :=
  ⟨{ demo with configPhase := false }, _, rfl, rfl⟩

/-- ConfigurationStaysFixed, KbdAdvanceAges, ScanReportsRows, ExecFreeRun, ExecInstrumented, ResetRestarts, DiscardInvalidates: a valid block, with and
without a debug hook. -/
theorem witness_Valid : demo.valid = true ∧ demo.params.debugHook = false ∧
    (State.constructed { demoParams with debugHook := true }).params.debugHook = true ∧
    (State.constructed { demoParams with debugHook := true }).valid = true := by decide

/-- HeldKeyStaysVisible: a key just pressed, one microsecond short of the hold time of K-7. -/
theorem witness_HeldKeyStaysVisible :
    ({ demo with kbd := keys.keyDown 0x0D, params := demoParams (hold := 20000) } : State).valid = true ∧
    ((keys.keyDown 0x0D).cell { col := 1, row := 0 }).pressed = true ∧
    ((keys.keyDown 0x0D).cell { col := 1, row := 0 }).age + 19999 < (demoParams (hold := 20000)).kbdHoldUs := by decide

/-- ExecZero: a state with the invariant, in either mode. -/
theorem witness_ExecZero : demo.Inv ∧ demo.valid = true ∧ (ExecMode.freeRun = .instrumented → demo.params.debugHook = true) ∧
    (State.constructed { demoParams with debugHook := true }).Inv ∧
    (State.constructed { demoParams with debugHook := true }).params.debugHook = true :=
  ⟨witness_inv, rfl, fun h => (by cases h), inv_of rfl (by decide) (by decide) (by decide) (by decide) initial_pend (by decide) rfl (by decide), rfl⟩

/-- DiscardedBlockRefuses: a discarded block and an operation that is no video fetch. -/
theorem witness_DiscardedBlockRefuses : demo.discard.valid = false ∧ Instr.isFetch .tick = false ∧
    Instr.isFetch (.ioWrC12 0x9130 0) = false := by decide

/-- A configuration that construction admits (R162). -/
def demoSetup : Setup :=
  { char := List.replicate 0x1000 0x18, basic := List.replicate 0x2000 0x19, kernal := List.replicate 0x2000 0x1A, sampleRate := 44100, volume := 7,
    audioCap := 4, audioMax := 4096, debugCb := false, stopFlag := false, joystick := false, vicSel := [], expPresent := #v[false, false, false, false],
    kbdHoldUs := none, pinReset := { addr := 0, data := 0, rw := .rd, other := 0 } }

/-- ConstructionOutcomes, ConstructedHasInvariant: sizes, audio capacity and debug hook in order, and each wrong in turn (H-9). -/
theorem witness_ConstructionOutcomes :
    (demoSetup.char.length = 0x1000 ∧ demoSetup.basic.length = 0x2000 ∧ demoSetup.kernal.length = 0x2000) ∧
    (demoSetup.audioCap ≤ demoSetup.audioMax ∧ demoSetup.audioCap ≠ 0) ∧ (demoSetup.debugCb = true → demoSetup.stopFlag = true) ∧
    demoSetup.joystick = false ∧ ({ demoSetup with joystick := true } : Setup).joystick = true ∧
    ({ demoSetup with char := List.replicate 0x0FFF 0 } : Setup).char.length ≠ 0x1000 ∧
    ({ demoSetup with audioCap := 0 } : Setup).audioCap = 0 ∧
    ¬ (({ demoSetup with audioCap := 4097 } : Setup).audioCap ≤ demoSetup.audioMax) ∧
    ¬ (({ demoSetup with debugCb := true } : Setup).debugCb = true → demoSetup.stopFlag = true) :=
  ⟨⟨List.length_replicate, List.length_replicate, List.length_replicate⟩, by decide, by decide, rfl, rfl,
    (show (List.replicate 0x0FFF (0 : Byte)).length ≠ 0x1000 by rw [List.length_replicate]; decide), rfl, by decide, by decide⟩

/-- R7, D24: a hold time that is not given is 0, and one that is given is kept. -/
theorem test_holdDefault : (setupParams demoSetup).kbdHoldUs = 0 ∧
    (setupParams { demoSetup with kbdHoldUs := some 20000 }).kbdHoldUs = 20000 := ⟨rfl, rfl⟩

/-- D30, log 8: a capacity above the maximum and one of 0 come out admitted, an admitted one is kept. -/
theorem test_bounded :
    [{ demoParams with audioCap := 5000 }, { demoParams with audioCap := 0 }, demoParams].map (fun p => p.bounded.audioCap) =
    [4096, 1, 4] := by decide

/-- ConstructedHasInvariant: construction answers with a state. -/
theorem witness_ConstructedHasInvariant : ∃ t, construct demoSetup = .next t := by
  have hs : ¬ (demoSetup.char.length ≠ 0x1000 ∨ demoSetup.basic.length ≠ 0x2000 ∨ demoSetup.kernal.length ≠ 0x2000) := by
    have h := witness_ConstructionOutcomes.1
    omega
  rw [construct, if_neg hs, if_neg (by decide), if_neg (by decide), if_neg (by decide)]
  exact ⟨_, rfl⟩

/-- StepKeepsInvariant: a step from a state with the invariant, with an input and without. -/
theorem witness_StepKeepsInvariant : ({ demo with inbox := [.bus 0x01234 0x56] } : State).Inv ∧
    (∃ t, step { demo with inbox := [.bus 0x01234 0x56] } = .next t) ∧ demo.Inv ∧ ∃ t, step demo = .next t :=
  ⟨inv_of rfl (by decide) (by decide) (by decide) (by decide) initial_pend (by decide) rfl (by decide), ⟨_, rfl⟩, witness_inv, ⟨_, rfl⟩⟩

end Sys2Proof.Tests
end

section
/-! The canonical memory form determines the list (10_state.md R21 to R23; log 7). -/

namespace Sys2Proof.Machine

/-- In a list with rising keys, looking up a listed key finds its entry. -/
theorem assocFind_of_mem {α : Type} {l : List (Nat × α)} {k : Nat} {v : α} (hs : AssocSorted l) (h : (k, v) ∈ l) :
    assocFind l k = some v := by
  induction l with
  | nil => exact absurd h List.not_mem_nil
  | cons c t ih =>
    obtain ⟨hc, ht⟩ := List.pairwise_cons.mp hs
    rcases List.mem_cons.mp h with rfl | h
    · simp [assocFind]
    · have hne : c.1 ≠ k := Nat.ne_of_lt (hc _ h)
      simp [assocFind, hne, ih ht h]

/-- Lists with rising keys and the same entries are equal. -/
theorem AssocSorted.ext {α : Type} {l l' : List (Nat × α)} (h : AssocSorted l) (h' : AssocSorted l')
    (he : ∀ c, c ∈ l ↔ c ∈ l') : l = l' := by
  have : Std.Irrefl (fun c c' : Nat × α => c.1 < c'.1) := ⟨fun c => Nat.lt_irrefl c.1⟩
  have : Std.Antisymm (fun c c' : Nat × α => c.1 < c'.1) := ⟨fun _ _ h₁ h₂ => absurd h₁ (Nat.lt_asymm h₂)⟩
  exact List.Pairwise.eq_of_mem_iff h h' he

/-- A canonical memory lists exactly the cells that do not read as their power-on byte. -/
theorem Memory.mem_iff_read {m : List Host.Cell} (h : Memory.wf m) (c : Host.Cell) :
    c ∈ m ↔ Memory.read m c.1 = c.2 ∧ c.2 ≠ Config.powerOn c.1 := by
  obtain ⟨hs, hne⟩ := h
  constructor
  · intro hc
    exact ⟨by simp [Memory.read, assocFind_of_mem hs hc], hne c hc⟩
  · rintro ⟨hr, hp⟩
    unfold Memory.read at hr
    cases hf : assocFind m c.1 with
    | none => rw [hf] at hr; exact absurd hr.symm hp
    | some v => rw [hf] at hr; cases hr; exact assocFind_mem hf

/-- Settles O17: both lists hold exactly the cells that differ from power-on, in the order of their keys. -/
theorem canonicalMemoryIsDetermined : Obligations.CanonicalMemoryIsDetermined := by
  intro m m' h h' hr
  have ⟨hs, _⟩ := h
  have ⟨hs', _⟩ := h'
  refine hs.ext hs' fun c => ?_
  rw [Memory.mem_iff_read h, Memory.mem_iff_read h', hr]

end Sys2Proof.Machine
end

section
/-! The state right after construction (10_state.md R35): its values, and that it has the invariant. -/

namespace Sys2Proof.Machine

@[simp] theorem Keyboard.cell_initial (x : Coord) :
    Keyboard.initial.cell x = { pressed := false, age := 0, pend := false } := by
  simp [Keyboard.initial, Keyboard.cell]

theorem Keyboard.modCell_initial (j : Fin 2) : Keyboard.initial.modCell[j] = none := by simp [Keyboard.initial]

@[simp] theorem Audio.initial_length (cap : Nat) : (Audio.initial cap).buf.length = cap := by simp [Audio.initial]

/-- Settles O56: the clauses are the fields of `State.constructed`, and the free parameters are bounded. -/
theorem resetValues : Obligations.ResetValues := by
  obtain ⟨hpos, hmax⟩ : Config.params.Admitted := Params.bounded_admitted _
  refine ⟨rfl, hpos, hmax, fun p => ?_⟩
  exact ⟨rfl, rfl, rfl, rfl, rfl, rfl, rfl, rfl, rfl, rfl, rfl, rfl, rfl, rfl, Keyboard.cell_initial, rfl,
    Keyboard.modCell_initial, rfl, rfl, Audio.initial_length _, rfl, rfl, rfl, rfl⟩

/-- Every expansion region may stand in a table, since only those of fitted banks are registered (R50). -/
theorem expRegions_ok (fitted : Vector Bool 4) : ∀ r ∈ expRegions fitted, RegionOk fitted r := by
  intro r hr
  simp only [expRegions, List.mem_append, List.mem_ite_nil_right, List.mem_singleton] at hr
  rcases hr with ((⟨hf, rfl⟩ | ⟨hf, rfl⟩) | ⟨hf, rfl⟩) | ⟨hf, rfl⟩ <;>
    exact ⟨by decide, by decide, hf, by decide⟩

/-- The table with every expansion bank fitted holds the others as sublists. -/
theorem cpuLayout_sublist (fitted : Vector Bool 4) :
    (cpuLayout fitted).Sublist (cpuLayout #v[true, true, true, true]) := by
  have hif : ∀ (c : Bool) (r : Region), (if c then [r] else []).Sublist [r] := by
    intro c r; cases c <;> simp
  unfold cpuLayout expRegions
  exact (List.Sublist.refl _).append ((((hif _ _).append (hif _ _)).append (hif _ _)).append (hif _ _))

/-- R41 and R50 register only what R38 admits. -/
theorem cpuLayout_ok (fitted : Vector Bool 4) : TableOk fitted (cpuLayout fitted) := by
  have hall : (cpuLayout #v[true, true, true, true]).Pairwise Apart := by decide
  refine ⟨fun r hr => ?_, hall.sublist (cpuLayout_sublist fitted)⟩
  rcases List.mem_append.mp hr with hr | hr
  · simp only [List.mem_cons, List.not_mem_nil, or_false] at hr
    rcases hr with rfl | rfl | rfl | rfl | rfl | rfl <;> exact ⟨by decide, by decide, rfl, by decide⟩
  · exact expRegions_ok fitted r hr

/-- R43 registers only what R38 admits. -/
theorem vidLayout_ok (fitted : Vector Bool 4) : TableOk fitted vidLayout := by
  refine ⟨fun r hr => ?_, by decide⟩
  simp only [vidLayout, List.mem_cons, List.not_mem_nil, or_false] at hr
  rcases hr with rfl | rfl | rfl <;> exact ⟨by decide, by decide, rfl, by decide⟩

/-- Construction with an admitted audio capacity establishes the invariant. -/
theorem State.Inv.constructed {p : Params} (h : p.Admitted) : (State.constructed p).Inv where
  memCanonical := ⟨List.Pairwise.nil, fun _ hc => absurd hc List.not_mem_nil⟩
  memInside := fun _ hc => absurd hc List.not_mem_nil
  cartFits := Nat.zero_le _
  cpuTable := cpuLayout_ok p.expPresent
  vidTable := vidLayout_ok p.expPresent
  keymapSorted := List.Pairwise.nil
  pendYoung := by simp [State.constructed]
  audioBounded := h
  audioLength := Audio.initial_length _
  audioInside := h.1

/-- Settles O58: the free parameters are bounded to an admitted audio capacity. -/
theorem resetHasInvariant : Obligations.ResetHasInvariant := State.Inv.constructed (Params.bounded_admitted _)

end Sys2Proof.Machine
end

section
/-! Which operations may change the region tables, the ROM banks, the keyboard and the two marks (10_state.md R21 to R31): each
is `Updates.exec` at one relation. -/

namespace Sys2Proof.Machine

/-- An update that leaves memory, region tables, cartridge, keyboard and validity alone and does not clear the refusal mark:
what every named update is but the memory write, the keyboard's, DISCARD's and the registrations'. -/
structure State.Quiet (u v : State) : Prop where
  mem        : v.mem = u.mem
  cartLen    : v.cartLen = u.cartLen
  regionsCpu : v.regionsCpu = u.regionsCpu
  regionsVid : v.regionsVid = u.regionsVid
  kbd        : v.kbd = u.kbd
  valid      : v.valid = u.valid
  refused    : u.refused = true → v.refused = true

theorem State.Quiet.chipSteps (ch : Chips) (c1 c2 cv : Bool) (u : State) : u.Quiet (u.chipSteps ch c1 c2 cv) :=
  ⟨by simp, by simp, by simp, by simp, by simp, by simp, by simp⟩

/-- For a transitive relation that holds of every quiet update, the updates that are not quiet remain. -/
theorem Updates.ofQuiet {P : State → State → Prop} {i : Instr} {s : State} (quiet : ∀ {u v}, State.Quiet u v → P u v)
    (chain : ∀ {a b c}, P a b → P b c → P a c) (write : ∀ (u : State) sp a v, P u (u.memWrite sp a v))
    (keyDown : ∀ code, i = .keyDown code → ∀ u : State, P u (u.setKbd (u.kbd.keyDown code)))
    (keyUp : ∀ code, i = .keyUp code → ∀ u : State, P u (u.setKbd (u.kbd.keyUp u.params.kbdHoldUs code)))
    (advance : ∀ us, (i = .kbdAdvance us ∨ ∃ mode, i = .exec mode us) → ∀ u : State, P u (u.kbdAdvance us))
    (bind : ∀ m col row, i = .modRegister m col row → P s (s.setKbd (s.kbd.bindModifier m { col := col, row := row })))
    (register : ∀ code col row mask, i = .keyRegister code col row mask →
      P s (s.setKbd (s.kbd.registerKey code { cell := { col := col, row := row }, mask := mask })))
    (discard : i = .discard → P s s.discard)
    (region : ∀ sp acc layer id base len off, i = .mapRegion sp acc layer id base len off →
      ∀ r, s.admits sp r = true → P s (s.addRegion sp r))
    (cart : ∀ p, i = .cartInsert p → 1 ≤ p.length → p.length ≤ cartMax → P s (s.loadCart p)) : Updates P i s where
  same _ := quiet ⟨rfl, rfl, rfl, rfl, rfl, rfl, id⟩
  chain := chain
  refuse _ _ := quiet ⟨rfl, rfl, rfl, rfl, rfl, rfl, fun _ => rfl⟩
  answer _ _ := quiet ⟨rfl, rfl, rfl, rfl, rfl, rfl, id⟩
  close _ := quiet ⟨rfl, rfl, rfl, rfl, rfl, rfl, id⟩
  drawn _ := quiet ⟨rfl, rfl, rfl, rfl, rfl, rfl, id⟩
  emit _ _ := quiet ⟨rfl, rfl, rfl, rfl, rfl, rfl, id⟩
  pins _ _ := quiet ⟨rfl, rfl, rfl, rfl, rfl, rfl, id⟩
  chips u c1 c2 cv := quiet (.chipSteps _ c1 c2 cv u)
  cpu _ := quiet ⟨rfl, rfl, rfl, rfl, rfl, rfl, id⟩
  write := write
  keyDown := keyDown
  keyUp := keyUp
  advance := advance
  bind m col row hi _ := bind m col row hi
  register code col row mask hi _ := register code col row mask hi
  reset _ := quiet ⟨rfl, rfl, rfl, rfl, rfl, rfl, id⟩
  discard := discard
  region := region
  cart p hi h1 h2 _ := cart p hi h1 h2

/-! ### Region tables -/

/-- Both region tables and the cartridge's length. -/
def State.tables (s : State) : List Region × List Region × Nat := (s.regionsCpu, s.regionsVid, s.cartLen)

theorem State.Quiet.tables {u v : State} (h : u.Quiet v) : v.tables = u.tables := by
  simp [State.tables, h.regionsCpu, h.regionsVid, h.cartLen]

theorem State.tables_memWrite (u : State) (sp : Space) (a : Addr) (v : Byte) : (u.memWrite sp a v).tables = u.tables := by
  simp [State.tables]

theorem exec_tables {i : Instr} {s t : State} (he : exec i s = .next t)
    (hmap : ∀ sp acc layer id base len off, i ≠ .mapRegion sp acc layer id base len off) (hcart : ∀ p, i ≠ .cartInsert p) :
    t.tables = s.tables := by
  have h : Updates (fun u v => v.tables = u.tables) i s := .ofQuiet
    (quiet := State.Quiet.tables)
    (chain := fun hab hbc => hbc.trans hab)
    (write := State.tables_memWrite)
    (keyDown := fun _ _ _ => rfl) (keyUp := fun _ _ _ => rfl) (advance := fun _ _ _ => rfl)
    (bind := fun _ _ _ _ => rfl) (register := fun _ _ _ _ _ => rfl) (discard := fun _ => rfl)
    (region := fun sp acc layer id base len off hi => absurd hi (hmap sp acc layer id base len off))
    (cart := fun p hi => absurd hi (hcart p))
  exact h.exec he

/-- Settles O22: of the named updates, only `State.addRegion` and `State.loadCart` touch the tables. -/
theorem regionsChangeOnlyByRegistration : Obligations.RegionsChangeOnlyByRegistration := by
  intro i s t he hmap hcart
  have h := exec_tables he hmap hcart
  simpa only [State.tables, Prod.mk.injEq] using h

/-! ### ROM banks -/

/-- The banks that hold the ROM images (R21). -/
def Bank.IsRom (b : Bank) : Prop := b = .char ∨ b = .basic ∨ b = .kernal

theorem Bank.IsRom.size_le {b : Bank} (h : b.IsRom) : b.size 0 ≤ cartMax := by
  rcases h with rfl | rfl | rfl <;> decide

theorem Bank.IsRom.ne_cart {b : Bank} (h : b.IsRom) : b ≠ .cart := by
  rcases h with rfl | rfl | rfl <;> decide

/-- No bank passes the common span of `cellKey`. -/
theorem Bank.size_le_cartMax (b : Bank) : b.size cartMax ≤ cartMax := by cases b <;> decide

/-- The region stays inside its bank's span, and is RO where that bank is ROM. -/
def Region.KeepsRom (r : Region) : Prop := r.off + r.len ≤ cartMax ∧ (r.bank.IsRom → r.acc = .ro)

/-- Every region of either space leaves the ROM banks alone. -/
def State.KeepsRom (s : State) : Prop := ∀ sp, ∀ r ∈ s.regions sp, r.KeepsRom

theorem cartRegion_keepsRom {n : Nat} (h : n ≤ cartMax) : (cartRegion n).KeepsRom :=
  ⟨by simpa [cartRegion] using h, fun _ => rfl⟩

theorem State.Inv.keepsRom {s : State} (h : s.Inv) (hro : ∀ sp, ∀ r ∈ s.regions sp, r.bank.IsRom → r.acc = .ro) :
    s.KeepsRom := by
  intro sp r hr
  obtain ⟨-, -, -, hfit⟩ := (h.table sp).1 r hr
  exact ⟨hfit.trans r.bank.size_le_cartMax, hro sp r hr⟩

/-- `v` has the ROM bytes of `u`. -/
def State.SameRom (u v : State) : Prop := ∀ b : Bank, b.IsRom → ∀ k, k < b.size 0 → v.bankByte b k = u.bankByte b k

theorem State.SameRom.of_mem_eq {u v : State} (h : v.mem = u.mem) : u.SameRom v := by
  intro b _ k _
  simp [State.bankByte, h]

/-- A region that keeps the ROM banks has its key of a covered address in another bank, if it is RW at all (R46, R48). -/
theorem Region.KeepsRom.key_ne {r : Region} (h : r.KeepsRom) {a : Addr} (hc : r.covers a = true) (hw : r.acc = .rw) {b : Bank}
    (hb : b.IsRom) {k : Nat} (hk : k < b.size 0) : r.key a ≠ cellKey b k := by
  intro heq
  have hi : r.index a < 0x2000 := by
    have hfit : r.off + r.len ≤ 0x2000 := h.1
    simp only [Region.covers, Bool.and_eq_true, decide_eq_true_eq] at hc
    unfold Region.index
    omega
  obtain ⟨rfl, -⟩ := cellKey_inj hi (Nat.lt_of_lt_of_le hk hb.size_le) heq
  rw [h.2 hb] at hw
  cases hw

theorem State.KeepsRom.writeKey_ne {s : State} (h : s.KeepsRom) (sp : Space) (a : Addr) {b : Bank} (hb : b.IsRom) {k : Nat}
    (hk : k < b.size 0) : s.writeKey sp a ≠ some (cellKey b k) := by
  unfold State.writeKey
  split
  · next r hr =>
    obtain ⟨hmem, hcov⟩ := effectiveIn_spec hr
    split
    · next hw => exact fun he => (h sp r hmem).key_ne hcov hw hb hk (Option.some.inj he)
    · nofun
  · nofun

theorem State.KeepsRom.sameRom_memWrite {s : State} (h : s.KeepsRom) (sp : Space) (a : Addr) (v : Byte) :
    s.SameRom (s.memWrite sp a v) := by
  intro b hb k hk
  unfold State.bankByte
  rw [State.read_memWrite, if_neg (h.writeKey_ne sp a hb hk)]

/-- A cartridge is loaded into its own bank (R171). -/
theorem State.sameRom_loadCart (s : State) {p : List Byte} (hp : p.length ≤ cartMax) : s.SameRom (s.loadCart p) := by
  intro b hb k hk
  have hspan : k < cartMax := Nat.lt_of_lt_of_le hk hb.size_le
  have hdiv : cellKey b k / 0x2000 = b.id := by unfold cellKey; unfold cartMax at hspan; omega
  have hid : b.id ≠ Bank.cart.id := by rcases hb with rfl | rfl | rfl <;> decide
  unfold State.bankByte
  rw [State.loadCart_mem, Memory.read_writeRun_otherBank _ _ hb.ne_cart hp hspan, Memory.read_dropBank, hdiv, if_neg hid]

theorem State.KeepsRom.loadCart {s : State} (h : s.KeepsRom) {p : List Byte} (hp : p.length ≤ cartMax) :
    (s.loadCart p).KeepsRom := by
  intro sp r hr
  cases sp with
  | cpu =>
    rcases List.mem_append.mp (hr : r ∈ s.withoutCart ++ [cartRegion p.length]) with hr | hr
    · exact h .cpu r (List.mem_of_mem_filter hr)
    · exact List.mem_singleton.mp hr ▸ cartRegion_keepsRom hp
  | vid => exact h .vid r hr

/-- What an update does while the tables keep the ROM banks: the tables still do, and the ROM bytes stay. -/
def RomKept (u v : State) : Prop := u.KeepsRom → v.KeepsRom ∧ u.SameRom v

theorem RomKept.trans {a b c : State} (hab : RomKept a b) (hbc : RomKept b c) : RomKept a c := by
  intro ha
  obtain ⟨hb, hsab⟩ := hab ha
  obtain ⟨hc, hsbc⟩ := hbc hb
  exact ⟨hc, fun r hr k hk => (hsbc r hr k hk).trans (hsab r hr k hk)⟩

theorem State.Quiet.romKept {u v : State} (h : u.Quiet v) : RomKept u v := by
  have hr : ∀ sp, v.regions sp = u.regions sp := by
    intro sp
    cases sp
    · exact h.regionsCpu
    · exact h.regionsVid
  exact fun hu => ⟨fun sp r hv => hu sp r (hr sp ▸ hv), .of_mem_eq h.mem⟩

theorem RomKept.setKbd (u : State) (k : Keyboard) : RomKept u (u.setKbd k) := fun hu => ⟨hu, .of_mem_eq rfl⟩

theorem RomKept.memWrite (u : State) (sp : Space) (a : Addr) (v : Byte) : RomKept u (u.memWrite sp a v) :=
  fun hu => ⟨fun sp' r hr => hu sp' r (by simpa using hr), hu.sameRom_memWrite sp a v⟩

theorem exec_romKept {i : Instr} {s t : State} (he : exec i s = .next t)
    (hmap : ∀ sp acc layer id base len off, i ≠ .mapRegion sp acc layer id base len off) : RomKept s t := by
  have h : Updates RomKept i s := .ofQuiet
    (quiet := State.Quiet.romKept)
    (chain := RomKept.trans)
    (write := RomKept.memWrite)
    (keyDown := fun _ _ u => .setKbd u _) (keyUp := fun _ _ u => .setKbd u _) (advance := fun _ _ u => .setKbd u _)
    (bind := fun _ _ _ _ => .setKbd s _) (register := fun _ _ _ _ _ => .setKbd s _)
    (discard := fun _ hs => ⟨hs, .of_mem_eq rfl⟩)
    (region := fun sp acc layer id base len off hi => absurd hi (hmap sp acc layer id base len off))
    (cart := fun p _ _ hp hs => ⟨hs.loadCart hp, s.sameRom_loadCart hp⟩)
  exact h.exec he

/-- A registration writes no memory (R172). -/
theorem State.mapRegion_mem (s : State) (sp : Space) (r : Region) : (s.mapRegion sp r).mem = s.mem := by
  unfold State.mapRegion
  split
  · cases sp <;> rfl
  · rfl

theorem execMapRegion_mem {sp : Space} {acc : Access} {layer : Layer} {id : BitVec 4} {base : Addr} {len off : Nat} {s t : State}
    (he : execMapRegion sp acc layer id base len off s = .next t) : t.mem = s.mem := by
  rcases operate_cases he with ⟨-, rfl⟩ | ⟨-, rfl⟩
  · split
    · exact State.mapRegion_mem _ _ _
    · rfl
  · rfl

/-- Settles O23: a write passes through an RW region, and none of those reaches a ROM bank; MAP_REGION, which may register one
that does, writes nothing itself. -/
theorem romImagesSurvive : Obligations.RomImagesSurvive := by
  intro i s t hinv he hro
  show s.SameRom t
  by_cases hi : ∃ sp acc layer id base len off, i = .mapRegion sp acc layer id base len off
  · obtain ⟨sp, acc, layer, id, base, len, off, rfl⟩ := hi
    exact .of_mem_eq (execMapRegion_mem he)
  · have hk : RomKept s t := exec_romKept he fun sp acc layer id base len off h => hi ⟨sp, acc, layer, id, base, len, off, h⟩
    exact (hk (hinv.keepsRom hro)).2

/-! ### The keyboard -/

/-- A part `g` of the keyboard that the registrations keep is kept by every operation that neither presses, releases nor ages
a key. -/
theorem exec_keeps_kbd {β : Type} (g : Keyboard → β) {i : Instr} {s t : State} (he : exec i s = .next t)
    (hdown : ∀ code, i ≠ .keyDown code) (hup : ∀ code, i ≠ .keyUp code) (hadv : ∀ u, i ≠ .kbdAdvance u)
    (hexec : ∀ mode e, i ≠ .exec mode e)
    (hbind : ∀ m col row, i = .modRegister m col row → g (s.kbd.bindModifier m { col := col, row := row }) = g s.kbd)
    (hreg : ∀ code col row mask, i = .keyRegister code col row mask →
      g (s.kbd.registerKey code { cell := { col := col, row := row }, mask := mask }) = g s.kbd) :
    g t.kbd = g s.kbd := by
  have h : Updates (fun u v => g v.kbd = g u.kbd) i s := .ofQuiet
    (quiet := fun hq => congrArg g hq.kbd)
    (chain := fun hab hbc => hbc.trans hab)
    (write := fun u sp a v => congrArg g (u.memWrite_kbd sp a v))
    (keyDown := fun code hi => absurd hi (hdown code))
    (keyUp := fun code hi => absurd hi (hup code))
    (advance := fun us hi => hi.elim (fun hi => absurd hi (hadv us)) (fun ⟨mode, hi⟩ => absurd hi (hexec mode us)))
    (bind := hbind) (register := hreg)
    (discard := fun _ => rfl)
    (region := fun sp _ _ _ _ _ _ _ _ _ => by cases sp <;> rfl)
    (cart := fun _ _ _ _ => rfl)
  exact h.exec he

/-- Settles O47: the registrations change the bindings only, so they keep the cells; the rest keep the whole keyboard. -/
theorem gridChangesOnlyByKeyboardOperations : Obligations.GridChangesOnlyByKeyboardOperations := by
  intro i s t he hdown hup hadv hexec
  constructor
  · exact exec_keeps_kbd Keyboard.cells he hdown hup hadv hexec (fun _ _ _ _ => rfl) (fun _ _ _ _ _ => rfl)
  · intro hmod hkey
    exact exec_keeps_kbd id he hdown hup hadv hexec (fun m col row hi => absurd hi (hmod m col row))
      (fun code col row mask hi => absurd hi (hkey code col row mask))

/-! ### The refusal mark and the validity flag -/

/-- No named update clears the refusal mark (R31). -/
theorem exec_refused {i : Instr} {s t : State} (he : exec i s = .next t) (hs : s.refused = true) : t.refused = true := by
  have h : Updates (fun u v => u.refused = true → v.refused = true) i s := .ofQuiet
    (quiet := State.Quiet.refused)
    (chain := fun hab hbc => hbc ∘ hab)
    (write := fun u sp a v hu => (u.memWrite_refused sp a v).trans hu)
    (keyDown := fun _ _ _ => id) (keyUp := fun _ _ _ => id) (advance := fun _ _ _ => id)
    (bind := fun _ _ _ _ => id) (register := fun _ _ _ _ _ => id) (discard := fun _ => id)
    (region := fun sp _ _ _ _ _ _ _ _ _ => by cases sp <;> exact id)
    (cart := fun _ _ _ _ => id)
  exact h.exec he hs

/-- Every operation but DISCARD keeps the validity flag (R30). -/
theorem exec_valid {i : Instr} {s t : State} (he : exec i s = .next t) (hi : i ≠ .discard) : t.valid = s.valid := by
  have h : Updates (fun u v => v.valid = u.valid) i s := .ofQuiet
    (quiet := State.Quiet.valid)
    (chain := fun hab hbc => hbc.trans hab)
    (write := State.memWrite_valid)
    (keyDown := fun _ _ _ => rfl) (keyUp := fun _ _ _ => rfl) (advance := fun _ _ _ => rfl)
    (bind := fun _ _ _ _ => rfl) (register := fun _ _ _ _ _ => rfl) (discard := fun hd => absurd hd hi)
    (region := fun sp _ _ _ _ _ _ _ _ _ => by cases sp <;> rfl)
    (cart := fun _ _ _ _ => rfl)
  exact h.exec he

/-- After DISCARD the block is not valid, whatever it was before (R176). -/
theorem execDiscard_valid {s t : State} (he : execDiscard s = .next t) : t.valid = false := by
  rcases operate_cases he with ⟨-, rfl⟩ | ⟨hv, rfl⟩
  · rfl
  · exact hv

/-- Settles O54: the refusal mark is kept by every update, the validity flag by every operation but DISCARD. -/
theorem marksAreSticky : Obligations.MarksAreSticky := by
  intro i s t he
  refine ⟨exec_refused he, ?_⟩
  by_cases hi : i = .discard
  · subst hi
    simp [execDiscard_valid he]
  · simp [exec_valid he hi, hi]

end Sys2Proof.Machine
end

section
/-! Every step keeps the invariant of the block (10_state.md R23, R24, R29; 20_memory.md R38; 42_keyboard.md R143;
43_host_operations.md R168): `Updates.exec` at the relation that carries the invariant over. -/

namespace Sys2Proof.Machine

/-- Loading an admitted cartridge is CART_INSERT but for the answer. -/
theorem State.cartInsert_admitted {s : State} {p : List Byte} (h1 : 1 ≤ p.length) (h2 : p.length ≤ cartMax)
    (hc : s.cartClash p.length = false) : s.cartInsert p = (s.loadCart p).answer .none := by
  rw [State.cartInsert, if_neg (by omega), if_neg (by simp [hc])]

theorem State.Inv.loadCart {s : State} (h : s.Inv) {p : List Byte} (h1 : 1 ≤ p.length) (h2 : p.length ≤ cartMax)
    (hc : s.cartClash p.length = false) : (s.loadCart p).Inv := by
  have hi : ((s.loadCart p).answer .none).Inv := State.cartInsert_admitted h1 h2 hc ▸ h.cartInsert p
  exact hi.of_eq rfl rfl rfl rfl rfl rfl rfl

/-- Binding a modifier touches neither the keymap nor the cells (R142). -/
theorem State.Inv.bindModifier {s : State} (h : s.Inv) (m : BitVec 1) (x : Coord) :
    (s.setKbd (s.kbd.bindModifier m x)).Inv := h.setKbd h.keymapSorted h.pendYoung

/-- Registering a key leaves one registration per code, and the cells alone (R143). -/
theorem State.Inv.registerKey {s : State} (h : s.Inv) (code : Byte) (e : KeyEntry) :
    (s.setKbd (s.kbd.registerKey code e)).Inv := h.setKbd (assocInsert_sorted _ _ h.keymapSorted) h.pendYoung

theorem State.Inv.keyDown {s : State} (h : s.Inv) (code : Byte) : (s.setKbd (s.kbd.keyDown code)).Inv :=
  h.setKbd (Keyboard.keyDown_keymap code s.kbd ▸ h.keymapSorted) (Keyboard.keyDown_young code h.pendYoung)

theorem State.Inv.keyUp {s : State} (h : s.Inv) (code : Byte) :
    (s.setKbd (s.kbd.keyUp s.params.kbdHoldUs code)).Inv :=
  h.setKbd (Keyboard.keyUp_keymap _ code s.kbd ▸ h.keymapSorted) (Keyboard.keyUp_young code h.pendYoung)

theorem State.Inv.withInbox {s : State} (h : s.Inv) (fs : List Frame) : (s.withInbox fs).Inv :=
  h.of_eq rfl rfl rfl rfl rfl rfl rfl

theorem State.Inv.refuse {s : State} (h : s.Inv) (why : Reason) : (s.refuse why).Inv :=
  h.of_eq rfl rfl rfl rfl rfl rfl rfl

/-- Every named update an operation makes keeps the invariant. -/
theorem updates_inv (i : Instr) (s : State) : Updates (fun u v => u.Inv → v.Inv) i s where
  same _ h := h
  chain hab hbc h := hbc (hab h)
  refuse _ why h := h.refuse why
  answer _ _ h := h.of_eq rfl rfl rfl rfl rfl rfl rfl
  close _ h := h.of_eq rfl rfl rfl rfl rfl rfl rfl
  drawn _ h := h.of_eq rfl rfl rfl rfl rfl rfl rfl
  emit _ _ h := h.of_eq rfl rfl rfl rfl rfl rfl rfl
  pins _ _ h := h.of_eq rfl rfl rfl rfl rfl rfl rfl
  chips _ c1 c2 cv h := h.chipSteps _ c1 c2 cv
  cpu _ h := h.of_eq rfl rfl rfl rfl rfl rfl rfl
  write _ sp a v h := h.memWrite sp a v
  keyDown code _ _ h := h.keyDown code
  keyUp code _ _ h := h.keyUp code
  advance us _ _ h := h.kbdAdvance us
  bind m col row _ _ h := h.bindModifier m { col := col, row := row }
  register code col row mask _ _ h := h.registerKey code { cell := { col := col, row := row }, mask := mask }
  reset _ h := h.resetBlock _
  discard _ h := h.of_eq rfl rfl rfl rfl rfl rfl rfl
  region _ _ _ _ _ _ _ _ _ ha h := h.addRegion ha
  cart _ _ h1 h2 hc h := h.loadCart h1 h2 hc

theorem State.Inv.exec {s t : State} (h : s.Inv) {i : Instr} (he : exec i s = .next t) : t.Inv := (updates_inv i s).exec he h

/-- Settles O57: a step idles, executes the frame it takes from the input, or refuses it. -/
theorem stepKeepsInvariant : Obligations.StepKeepsInvariant := by
  intro s t h he
  unfold step at he
  split at he
  · cases he; exact h
  · next rest _ =>
    have hr : (s.withInbox rest).Inv := h.withInbox rest
    split at he
    · exact hr.exec he
    · rcases operate_cases he with ⟨-, rfl⟩ | ⟨-, rfl⟩
      · exact hr.refuse _
      · exact hr.refuse _

end Sys2Proof.Machine
end

section
/-! The lookup of a logical space (20_memory.md R38, R39, R44): which region is effective. -/

namespace Sys2Proof.Machine

theorem Region.covers_iff (r : Region) (a : Addr) : r.covers a = true ↔ inRange r.base r.len a := by
  simp [Region.covers, inRange]

/-- Two nonempty regions overlap when some address lies in both: the higher base does. -/
theorem Region.overlaps_iff {r q : Region} (hr : 1 ≤ r.len) (hq : 1 ≤ q.len) :
    r.overlaps q = true ↔ ∃ a, inRange r.base r.len a ∧ inRange q.base q.len a := by
  simp only [Region.overlaps, Bool.and_eq_true, decide_eq_true_eq, inRange]
  constructor
  · rintro ⟨h1, h2⟩
    rcases Nat.le_total r.base.toNat q.base.toNat with h | h
    · exact ⟨q.base, by omega⟩
    · exact ⟨r.base, by omega⟩
  · rintro ⟨a, h⟩
    omega

theorem Apart.symm {r q : Region} (h : Apart r q) : Apart q r := by
  simp only [Apart, Region.overlaps, Bool.and_eq_false_imp, beq_iff_eq, decide_eq_true_eq, decide_eq_false_iff_not] at h ⊢
  exact fun hl h1 h2 => h hl.symm h2 h1

/-- In a table whose regions lie apart, one region of a layer covers an address at most (R38(d)). -/
theorem eq_of_covers {rs : List Region} (hp : rs.Pairwise Apart) {r q : Region} {a : Addr} (hr : r ∈ rs) (hq : q ∈ rs)
    (hl : r.layer = q.layer) (hra : r.covers a = true) (hqa : q.covers a = true) : r = q := by
  have : Std.Symm Apart := ⟨fun _ _ => Apart.symm⟩
  by_contra hne
  have h : Apart r q := hp.forall hr hq hne
  simp only [Region.covers, Bool.and_eq_true, decide_eq_true_eq] at hra hqa
  simp only [Apart, Region.overlaps, hl, beq_self_eq_true, Bool.true_and, Bool.and_eq_false_iff,
    decide_eq_false_iff_not] at h
  omega

theorem coveringAt_eq_none_iff {rs : List Region} {l : Layer} {a : Addr} :
    coveringAt rs l a = none ↔ ∀ r ∈ rs, r.layer = l → r.covers a = false := by
  simp [coveringAt]

theorem coveringAt_eq_some_iff {rs : List Region} (hp : rs.Pairwise Apart) {l : Layer} {a : Addr} {r : Region} :
    coveringAt rs l a = some r ↔ r ∈ rs ∧ r.layer = l ∧ r.covers a = true := by
  have hspec : ∀ {q}, coveringAt rs l a = some q → q ∈ rs ∧ q.layer = l ∧ q.covers a = true := by
    intro q hq
    exact ⟨List.mem_of_find?_eq_some hq, by simpa using List.find?_some hq⟩
  constructor
  · exact hspec
  · rintro ⟨hr, rfl, ha⟩
    cases hc : coveringAt rs r.layer a with
    | none => simp [coveringAt_eq_none_iff.mp hc r hr rfl] at ha
    | some q =>
      obtain ⟨hq, hl, hqa⟩ := hspec hc
      rw [eq_of_covers hp hq hr hl hqa ha]

/-- The effective region: the covering region of lowest layer (R44). -/
theorem effectiveIn_eq_some_iff {rs : List Region} (hp : rs.Pairwise Apart) {a : Addr} {r : Region} :
    effectiveIn rs a = some r ↔
      r ∈ rs ∧ r.covers a = true ∧ ∀ q ∈ rs, q.covers a = true → q.layer = .l0 → r.layer = .l0 := by
  unfold effectiveIn
  cases h0 : coveringAt rs .l0 a with
  | some r0 =>
    obtain ⟨hr0, hl0, ha0⟩ := (coveringAt_eq_some_iff hp).mp h0
    constructor
    · rintro ⟨⟩
      exact ⟨hr0, ha0, fun _ _ _ _ => hl0⟩
    · rintro ⟨hr, ha, hlow⟩
      exact congrArg some (eq_of_covers hp hr0 hr (hl0.trans (hlow r0 hr0 ha0 hl0).symm) ha0 ha)
  | none =>
    have hno := coveringAt_eq_none_iff.mp h0
    simp only [coveringAt_eq_some_iff hp]
    constructor
    · rintro ⟨hr, -, ha⟩
      exact ⟨hr, ha, fun q hq hqa hql => absurd hqa (by simp [hno q hq hql])⟩
    · rintro ⟨hr, ha, -⟩
      cases hl : r.layer with
      | l0 => exact absurd ha (by simp [hno r hr hl])
      | l1 => exact ⟨hr, rfl, ha⟩

theorem effectiveIn_eq_none_iff {rs : List Region} {a : Addr} :
    effectiveIn rs a = none ↔ ∀ r ∈ rs, r.covers a = false := by
  constructor
  · intro h r hr
    unfold effectiveIn at h
    split at h
    · cases h
    · next h0 =>
      cases hl : r.layer with
      | l0 => exact coveringAt_eq_none_iff.mp h0 r hr hl
      | l1 => exact coveringAt_eq_none_iff.mp h r hr hl
  · exact effectiveIn_none

theorem State.effective_eq_none_iff {s : State} {sp : Space} {a : Addr} :
    s.effective sp a = none ↔ ∀ r ∈ s.regions sp, ¬ inRange r.base r.len a := by
  simp only [State.effective, effectiveIn_eq_none_iff, ← Region.covers_iff, Bool.not_eq_true]

theorem State.Inv.effective_eq_some_iff {s : State} (h : s.Inv) {sp : Space} {a : Addr} {r : Region} :
    s.effective sp a = some r ↔ r ∈ s.regions sp ∧ inRange r.base r.len a ∧
      ∀ q ∈ s.regions sp, inRange q.base q.len a → q.layer = .l0 → r.layer = .l0 := by
  obtain ⟨-, hp⟩ := h.table sp
  simp only [State.effective, effectiveIn_eq_some_iff hp, ← Region.covers_iff]

/-- Settles O14: the invariant leaves at most one covering region per layer, and the lookup tries layer 0 first. -/
theorem effectiveRegionIsLowestLayer : Obligations.EffectiveRegionIsLowestLayer :=
  fun _ _ _ h => ⟨fun _ => h.effective_eq_some_iff, State.effective_eq_none_iff⟩

end Sys2Proof.Machine
end

section
/-! MEM_READ and MEM_WRITE (20_memory.md R40, R45 to R49; 43_host_operations.md R173, R174). -/

namespace Sys2Proof.Machine

theorem exec_memRead {s : State} (hv : s.valid = true) (sp : Space) (a : Addr) :
    exec (.memRead sp a) s = .next (s.answer (.byte (s.memRead sp a))) := operate_valid _ hv

theorem exec_memWrite {s : State} (hv : s.valid = true) (sp : Space) (a : Addr) (v : Byte) :
    exec (.memWrite sp a v) s = .next ((s.memWrite sp a v).answer .none) :=
  operate_valid (fun s => (s.memWrite sp a v).answer .none) hv

/-- MEM_READ of a covered address (R45). -/
theorem exec_memRead_some {s : State} (hv : s.valid = true) {sp : Space} {a : Addr} {r : Region}
    (hr : s.effective sp a = some r) :
    exec (.memRead sp a) s =
      .next (s.answer (.byte (s.bankByte r.bank (r.off + (a.toNat - r.base.toNat))))) := by
  rw [exec_memRead hv, State.memRead_some hr]
  rfl

/-- MEM_WRITE where no cell is reached (R46). -/
theorem exec_memWrite_none {s : State} (hv : s.valid = true) {sp : Space} {a : Addr} (v : Byte)
    (hk : s.writeKey sp a = none) : exec (.memWrite sp a v) s = .next (s.answer .none) := by
  rw [exec_memWrite hv, State.memWrite_none v hk]

/-- A byte written through an RW region is read through every region that reaches its cell (R40). -/
theorem State.memRead_memWrite_of_key_eq {s : State} {sp sp' : Space} {a b : Addr} {r q : Region} (v : Byte)
    (hr : s.effective sp a = some r) (hrw : r.acc = .rw) (hq : s.effective sp' b = some q) (hkey : q.key b = r.key a) :
    (s.memWrite sp a v).memRead sp' b = v := by
  rw [State.memRead_some ((s.memWrite_effective sp sp' a b v).trans hq), State.read_memWrite, State.writeKey_rw hr hrw,
    hkey, if_pos rfl]

/-- One bank and one index are one cell (R39). -/
theorem Region.key_eq_of_index_eq {r q : Region} {a b : Addr} (hb : q.bank = r.bank)
    (hi : q.off + (b.toNat - q.base.toNat) = r.off + (a.toNat - r.base.toNat)) : q.key b = r.key a :=
  congrArg₂ cellKey hb hi

/-- Settles O16: both regions reach the cell of one key. -/
theorem aliasesShareCells : Obligations.AliasesShareCells := by
  intro s sp sp' a b v r q hv hr hrw hq hb hi
  have hread : ((s.memWrite sp a v).answer .none).memRead sp' b = v :=
    State.memRead_memWrite_of_key_eq v hr hrw hq (Region.key_eq_of_index_eq hb hi)
  have hvalid : ((s.memWrite sp a v).answer .none).valid = true := (s.memWrite_valid sp a v).trans hv
  refine ⟨_, exec_memWrite hv sp a v, ?_⟩
  rw [exec_memRead hvalid, hread]
  rfl

/-- Settles O10: this is O16 with one address for both. -/
theorem writeThenReadReturnsWritten : Obligations.WriteThenReadReturnsWritten :=
  fun s sp a v r hv hr hrw => aliasesShareCells s sp sp a a v r r hv hr hrw hr rfl rfl

/-- Settles O11: a write reaches no cell through an RO region. -/
theorem readOnlyWriteIsDropped : Obligations.ReadOnlyWriteIsDropped :=
  fun _ _ _ v _ hv hr hro => ⟨exec_memWrite_none hv v (State.writeKey_ro hr hro), exec_memRead_some hv hr⟩

/-- Settles O12: the layer-0 region is the effective one, so O11 speaks of it. -/
theorem layerZeroHasPriority : Obligations.LayerZeroHasPriority := by
  intro s sp a v r q hinv hv hr _ hl _ hra _
  have heff : s.effective sp a = some r := hinv.effective_eq_some_iff.mpr ⟨hr, hra, fun _ _ _ _ => hl⟩
  exact ⟨exec_memRead_some hv heff, fun hro => (readOnlyWriteIsDropped s sp a v r hv heff hro).1⟩

/-- Settles O13: an uncovered address has no effective region, so it reads as FILL and no cell is written. -/
theorem memReadFollowsTheTable : Obligations.MemReadFollowsTheTable := by
  intro s sp a hv
  refine ⟨fun r hr => exec_memRead_some hv hr, fun hno => ?_⟩
  have heff : s.effective sp a = none := State.effective_eq_none_iff.mpr hno
  constructor
  · rw [exec_memRead hv, State.memRead_none heff]
    rfl
  · exact fun v => exec_memWrite_none hv v (by simp [State.writeKey, heff])

/-- A region of a table reaches indices below the banks' common span only. -/
theorem RegionOk.index_lt {fitted : Vector Bool 4} {r : Region} {a : Addr} (hr : RegionOk fitted r) (ha : r.covers a = true) :
    r.index a < 0x2000 := by
  obtain ⟨-, -, -, hfit⟩ := hr
  have hspan : r.bank.size cartMax ≤ 0x2000 := r.bank.size_le_cartMax
  simp only [Region.covers, Bool.and_eq_true, decide_eq_true_eq] at ha
  unfold Region.index
  omega

/-- The cell a write reaches, by bank and index (R39, R46). -/
theorem State.Inv.writeKey_eq_iff {s : State} (h : s.Inv) (sp : Space) (a : Addr) (b : Bank) {k : Nat} (hk : k < 0x2000) :
    s.writeKey sp a = some (cellKey b k) ↔
      ∃ r, s.effective sp a = some r ∧ r.acc = .rw ∧ r.bank = b ∧ r.off + (a.toNat - r.base.toNat) = k := by
  constructor
  · intro hw
    unfold State.writeKey at hw
    split at hw
    · next r hr =>
      obtain ⟨hmem, hcov⟩ := effectiveIn_spec hr
      obtain ⟨hok, -⟩ := h.table sp
      split at hw
      · next hrw =>
        obtain ⟨hb, hi⟩ := cellKey_inj ((hok r hmem).index_lt hcov) hk (Option.some.inj hw)
        exact ⟨r, hr, hrw, hb, hi⟩
      · cases hw
    · cases hw
  · rintro ⟨r, hr, hrw, rfl, rfl⟩
    exact State.writeKey_rw hr hrw

/-- Settles O15: a write changes memory only, at the one key it reaches, and keys tell banks and indices apart. -/
theorem writeChangesOneCell : Obligations.WriteChangesOneCell := by
  intro s sp a v hinv hv
  refine ⟨_, exec_memWrite hv sp a v, ?_, fun b k hk => ?_⟩
  · exact congrArg (State.answer .none) (s.memWrite_eq sp a v)
  · rw [← hinv.writeKey_eq_iff sp a b hk]
    have hread : ((s.memWrite sp a v).answer .none).bankByte b k =
        if s.writeKey sp a = some (cellKey b k) then v else s.bankByte b k := s.read_memWrite sp a v (cellKey b k)
    rw [hread]
    exact ⟨fun h => if_pos h, fun h => if_neg h⟩

end Sys2Proof.Machine
end

section
/-! MAP_REGION (20_memory.md R38, 43_host_operations.md R172): which registrations are admitted. -/

namespace Sys2Proof.Machine

/-- The bank a MAP_REGION word's id names, by the banks' ids (R21 to R23). -/
theorem Bank.ofId_eq_some_iff (id : BitVec 4) (b : Bank) : Bank.ofId id = some b ↔ b.id = id.toNat := by
  cases b <;> revert id <;> decide

theorem clashes_eq_false_iff {rs : List Region} {r : Region} (hrs : ∀ q ∈ rs, 1 ≤ q.len) (hr : 1 ≤ r.len) :
    clashes rs r = false ↔
      ∀ q ∈ rs, q.layer = r.layer → ∀ a, ¬ (inRange q.base q.len a ∧ inRange r.base r.len a) := by
  simp only [clashes, List.any_eq_false, Bool.and_eq_true, beq_iff_eq, not_and]
  refine forall₂_congr fun q hq => imp_congr_right fun _ => ?_
  rw [Region.overlaps_iff (hrs q hq) hr]
  simp

/-- The admission condition of R38, with R24's lower end of a length (log 15). -/
theorem State.Inv.admits_iff {s : State} (h : s.Inv) (sp : Space) (r : Region) :
    s.admits sp r = true ↔
      r.bank.present s.params.expPresent = true ∧ 1 ≤ r.len ∧ r.base.toNat + r.len ≤ 0x10000 ∧
        r.off + r.len ≤ r.bank.size s.cartLen ∧
        ∀ q ∈ s.regions sp, q.layer = r.layer → ∀ a, ¬ (inRange q.base q.len a ∧ inRange r.base r.len a) := by
  have hrs : ∀ q ∈ s.regions sp, 1 ≤ q.len := by
    intro q hq
    obtain ⟨hlen, -⟩ := (h.table sp).1 q hq
    exact hlen
  simp only [State.admits, State.regionFits, Bool.and_eq_true, decide_eq_true_eq, Bool.not_eq_true']
  constructor
  · rintro ⟨⟨⟨⟨hlen, htop⟩, hp⟩, hfit⟩, hc⟩
    exact ⟨hp, hlen, htop, hfit, (clashes_eq_false_iff hrs hlen).mp hc⟩
  · rintro ⟨hp, hlen, htop, hfit, hc⟩
    exact ⟨⟨⟨⟨hlen, htop⟩, hp⟩, hfit⟩, (clashes_eq_false_iff hrs hlen).mpr hc⟩

theorem exec_mapRegion_some {s : State} (hv : s.valid = true) (sp : Space) (acc : Access) (layer : Layer) {id : BitVec 4}
    {b : Bank} (hid : Bank.ofId id = some b) (base : Addr) (len off : Nat) :
    exec (.mapRegion sp acc layer id base len off) s =
      .next (s.mapRegion sp { base := base, len := len, bank := b, off := off, acc := acc, layer := layer }) := by
  show execMapRegion sp acc layer id base len off s = _
  rw [execMapRegion, operate_valid _ hv]
  simp only [hid]

theorem exec_mapRegion_none {s : State} (hv : s.valid = true) (sp : Space) (acc : Access) (layer : Layer) {id : BitVec 4}
    (hid : Bank.ofId id = none) (base : Addr) (len off : Nat) :
    exec (.mapRegion sp acc layer id base len off) s = .next (s.refuse .region) := by
  show execMapRegion sp acc layer id base len off s = _
  rw [execMapRegion, operate_valid _ hv]
  simp only [hid]

theorem State.mapRegion_admitted {s : State} {sp : Space} {r : Region} (h : s.admits sp r = true) :
    s.mapRegion sp r = (s.addRegion sp r).answer .none := if_pos h

theorem State.mapRegion_refused {s : State} {sp : Space} {r : Region} (h : ¬ s.admits sp r = true) :
    s.mapRegion sp r = s.refuse .region := if_neg h

/-- Settles O18: the bank is the one the id names, and the rest is the admission condition. -/
theorem mapRegionAdmission : Obligations.MapRegionAdmission := by
  intro s sp acc layer id base len off hinv hv fits
  constructor
  · rintro b ⟨hid, hfits⟩ r
    have ha : s.admits sp r = true := (hinv.admits_iff sp r).mpr hfits
    rw [exec_mapRegion_some hv sp acc layer ((Bank.ofId_eq_some_iff id b).mpr hid), State.mapRegion_admitted ha]
    cases sp <;> rfl
  · intro hno
    cases hid : Bank.ofId id with
    | none => exact exec_mapRegion_none hv sp acc layer hid base len off
    | some b =>
      rw [exec_mapRegion_some hv sp acc layer hid, State.mapRegion_refused]
      · rfl
      · exact fun ha => hno b ⟨(Bank.ofId_eq_some_iff id b).mp hid, (hinv.admits_iff sp _).mp ha⟩

end Sys2Proof.Machine
end

section
/-! Video fetches (20_memory.md R43, R52, R61; 41_bus_transactions.md R133 to R137; 40_tick_engine.md R99). -/

namespace Sys2Proof.Machine

/-! ### The three fields of a fetch (R52) -/

theorem State.vfetch_low (s : State) (n : Nat) (va : Addr) :
    (s.vfetch n va).extractLsb' 0 8 = s.memRead .vid (videoAddr va) := BitVec.extractLsb'_append_eq_right

theorem State.vfetch_color (s : State) (n : Nat) (va : Addr) :
    (s.vfetch n va).extractLsb' 8 4 = (s.bankByte .color (colorIndex va)).extractLsb' 0 4 := by
  unfold State.vfetch
  rw [BitVec.extractLsb'_append_eq_of_le (Nat.le_refl 8), BitVec.extractLsb'_append_eq_right]

theorem State.vfetch_top (s : State) (n : Nat) (va : Addr) :
    (s.vfetch n va).extractLsb' 12 4 = (Config.draw s.draws n).extractLsb' 0 4 := by
  unfold State.vfetch
  rw [BitVec.extractLsb'_append_eq_of_le (by decide), BitVec.extractLsb'_append_eq_of_le (by decide),
    BitVec.extractLsb'_eq_self]

theorem toNat_setWidth_vaddr (va : VAddr) : (va.setWidth 16).toNat = va.toNat := BitVec.toNat_setWidth_of_le (by decide)

/-- The video address is bits 13:0 (R52, R139). -/
theorem toNat_videoAddr (va : Addr) : (videoAddr va).toNat = va.toNat % 2 ^ 14 := by
  rw [videoAddr, BitVec.toNat_setWidth_of_le (by decide), BitVec.extractLsb'_toNat, Nat.shiftRight_zero]

theorem videoAddr_eq_and (va : Addr) : videoAddr va = va &&& 0x3FFF := by
  apply BitVec.eq_of_toNat_eq
  rw [toNat_videoAddr, BitVec.toNat_and]
  exact (Nat.and_two_pow_sub_one_eq_mod va.toNat 14).symm

theorem videoAddr_setWidth (va : VAddr) : videoAddr (va.setWidth 16) = va.setWidth 16 := by
  apply BitVec.eq_of_toNat_eq
  rw [toNat_videoAddr, toNat_setWidth_vaddr]
  exact Nat.mod_eq_of_lt va.isLt

theorem colorIndex_setWidth (va : VAddr) : colorIndex (va.setWidth 16) = va.toNat % 0x400 := by
  rw [colorIndex, BitVec.extractLsb'_toNat, Nat.shiftRight_zero, toNat_setWidth_vaddr]

/-! ### One fetch on its own (R78) -/

theorem exec_fetchClasses {va : VAddr} {i : Instr} (hi : i ∈ fetchClasses va) (s : State) :
    exec i s = .next (s.fetchOnce va) := by
  simp only [fetchClasses, List.mem_cons, List.not_mem_nil, or_false] at hi
  rcases hi with rfl | rfl | rfl | rfl | rfl | rfl <;> rfl

theorem fetchAnswers_of_exec {s : State} {va : VAddr} {i : Instr} (he : exec i s = .next (s.fetchOnce va)) :
    FetchAnswers s va i (s.memRead .vid (va.setWidth 16)) := by
  refine ⟨s.vfetch 0 (va.setWidth 16), he, ?_, ?_, s.vfetch_top 0 _⟩
  · rw [State.vfetch_low, videoAddr_setWidth]
  · rw [State.vfetch_color, colorIndex_setWidth]

theorem fetchAnswers_class {va : VAddr} {i : Instr} (hi : i ∈ fetchClasses va) (s : State) :
    FetchAnswers s va i (s.memRead .vid (va.setWidth 16)) := fetchAnswers_of_exec (exec_fetchClasses hi s)

/-! ### The VID table of construction (R43) -/

/-- A fetch at an address of one of the table's regions. -/
theorem fetchAnswers_region {s : State} (hs : s.regionsVid = vidLayout) {va : VAddr} {i : Instr} (hi : i ∈ fetchClasses va)
    {base : Addr} {b : Bank} {acc : Access} (hr : systemRegion base b acc ∈ vidLayout) (hlo : base.toNat ≤ va.toNat)
    (hhi : va.toNat < base.toNat + b.size 0) : FetchAnswers s va i (s.bankByte b (va.toNat - base.toNat)) := by
  have hl1 : ∀ q ∈ vidLayout, q.layer ≠ .l0 := by decide
  obtain ⟨-, hp⟩ := vidLayout_ok s.params.expPresent
  have hcov : inRange base (b.size 0) (va.setWidth 16) := by
    rw [inRange, toNat_setWidth_vaddr]
    exact ⟨hlo, hhi⟩
  have heff : s.effective .vid (va.setWidth 16) = some (systemRegion base b acc) := by
    rw [State.effective, show s.regions .vid = vidLayout from hs, effectiveIn_eq_some_iff hp, Region.covers_iff]
    exact ⟨hr, hcov, fun q hq _ h0 => absurd h0 (hl1 q hq)⟩
  have hread : s.memRead .vid (va.setWidth 16) = s.bankByte b (va.toNat - base.toNat) := by
    rw [State.memRead_some heff, State.bankByte, Region.key, Region.index, toNat_setWidth_vaddr]
    exact congrArg (fun k => Memory.read s.mem (cellKey b k)) (Nat.zero_add _)
  exact hread ▸ fetchAnswers_class hi s

/-- A fetch in one of the table's two gaps (R45). -/
theorem fetchAnswers_gap {s : State} (hs : s.regionsVid = vidLayout) {va : VAddr} {i : Instr} (hi : i ∈ fetchClasses va)
    (hgap : 0x1000 ≤ va.toNat ∧ va.toNat < 0x2000 ∨ 0x2400 ≤ va.toNat ∧ va.toNat < 0x3000) : FetchAnswers s va i 0xFF := by
  have hno : ∀ r ∈ vidLayout, ¬ inRange r.base r.len (va.setWidth 16) := by
    rintro r hr ⟨hlo, hhi⟩
    rw [toNat_setWidth_vaddr] at hlo hhi
    simp only [vidLayout, List.mem_cons, List.not_mem_nil, or_false] at hr
    rcases hr with rfl | rfl | rfl <;> simp only [systemRegion, Bank.size, BitVec.reduceToNat] at hlo hhi <;> omega
  have hread : s.memRead .vid (va.setWidth 16) = 0xFF :=
    State.memRead_none (State.effective_eq_none_iff.mpr fun r hr => hno r (hs ▸ hr))
  exact hread ▸ fetchAnswers_class hi s

/-- A video address under a mask of its bits from `k` up. -/
theorem vaddr_and_mask {va m p : VAddr} (k : Nat) (hk : k ≤ 14) (hm : m.toNat = 2 ^ 14 - 2 ^ k) (h : va &&& m = p) :
    va.toNat / 2 ^ k * 2 ^ k = p.toNat := by
  rw [← land_high va.isLt hk, ← hm, ← BitVec.toNat_and, h]

/-- Settles O25: a class's mask is its address range, which is a region of the table or lies in a gap. -/
theorem videoFetchClasses : Obligations.VideoFetchClasses := by
  intro s va
  refine ⟨fun i hi => fetchAnswers_class hi s, fun hs => ⟨fun h => ?char, fun h => ?gap0, fun h => ?zp, fun h => ?gap1A,
    fun h => ?gap1B, fun h => ?ram⟩⟩
  case char =>
    have hr : va.toNat / 2 ^ 12 * 2 ^ 12 = 0x0000 := vaddr_and_mask 12 (by decide) rfl h
    refine ⟨?_, fetchAnswers_region hs (by simp [fetchClasses]) (base := 0x0000) (acc := .ro) (by decide)
      (Nat.zero_le _) (show va.toNat < 0x0000 + 0x1000 by omega)⟩
    rw [decode, decodeVf, if_pos (by omega)]
  case gap0 =>
    have hr : va.toNat / 2 ^ 12 * 2 ^ 12 = 0x1000 := vaddr_and_mask 12 (by decide) rfl h
    refine ⟨?_, fetchAnswers_gap hs (by simp [fetchClasses]) (by omega)⟩
    rw [decode, decodeVf, if_neg (by omega), if_pos (by omega)]
  case zp =>
    have hr : va.toNat / 2 ^ 10 * 2 ^ 10 = 0x2000 := vaddr_and_mask 10 (by decide) rfl h
    refine ⟨?_, fetchAnswers_region hs (by simp [fetchClasses]) (base := 0x2000) (acc := .ro) (by decide)
      (show 0x2000 ≤ va.toNat by omega) (show va.toNat < 0x2000 + 0x400 by omega)⟩
    rw [decode, decodeVf, if_neg (by omega), if_neg (by omega), if_pos (by omega)]
  case gap1A =>
    have hr : va.toNat / 2 ^ 10 * 2 ^ 10 = 0x2400 := vaddr_and_mask 10 (by decide) rfl h
    refine ⟨?_, fetchAnswers_gap hs (by simp [fetchClasses]) (by omega)⟩
    rw [decode, decodeVf, if_neg (by omega), if_neg (by omega), if_neg (by omega), if_pos (by omega)]
  case gap1B =>
    have hr : va.toNat / 2 ^ 11 * 2 ^ 11 = 0x2800 := vaddr_and_mask 11 (by decide) rfl h
    refine ⟨?_, fetchAnswers_gap hs (by simp [fetchClasses]) (by omega)⟩
    rw [decode, decodeVf, if_neg (by omega), if_neg (by omega), if_neg (by omega), if_neg (by omega), if_pos (by omega)]
  case ram =>
    have hr : va.toNat / 2 ^ 12 * 2 ^ 12 = 0x3000 := vaddr_and_mask 12 (by decide) rfl h
    refine ⟨?_, fetchAnswers_region hs (by simp [fetchClasses]) (base := 0x3000) (acc := .ro) (by decide)
      (show 0x3000 ≤ va.toNat by omega) (show va.toNat < 0x3000 + 0x1000 by omega)⟩
    rw [decode, decodeVf, if_neg (by omega), if_neg (by omega), if_neg (by omega), if_neg (by omega), if_neg (by omega)]

/-! ### Fetches in the tick of a write (R61) -/

theorem exec_memWriteClasses {a : Addr} {d : Byte} {i : Instr} (hi : i ∈ memWriteClasses a d) (s : State) :
    exec i s = tickOp (State.memWriteCycle Config.chips a d) s := by
  simp only [memWriteClasses, List.mem_cons, List.not_mem_nil, or_false] at hi
  rcases hi with rfl | rfl | rfl | rfl | rfl | rfl | rfl | rfl | rfl | rfl | rfl | rfl <;> rfl

/-- With no chip selected the VIC ticks on the bus as step 2 left it, and fetches over that state's memory (R99). -/
theorem State.chipsTicked_vic (u : State) :
    (u.chipsTicked false false false).vic =
      (Config.chips.vicTick u.vic { addr := u.pins.addr, data := u.pins.data, rw := u.pins.rw, cs := false } u.vfetch).1 := rfl

/-- Settles O36: the video address reaches the written cell, and the VIC fetches over the written memory. -/
theorem sameTickFetchSeesWrite : Obligations.SameTickFetchSeesWrite := by
  intro s a va d r q hv hr hrw hq hb hidx i hi
  refine ⟨_, (s.memWrite .cpu a d).vfetch, (exec_memWriteClasses hi s).trans (memWrite_op hv), ?_, rfl, fun n => ?_⟩
  · have hf : State.vfetch { s.memWrite .cpu a d with pins := s.busPins a .wr d } = (s.memWrite .cpu a d).vfetch :=
      State.vfetch_congr rfl rfl rfl
    rw [State.chipsTicked_vic, hf, ← s.memWrite_vic .cpu a d]
    rfl
  · rw [State.vfetch_low, videoAddr_eq_and]
    exact State.memRead_memWrite_of_key_eq d hr hrw hq (Region.key_eq_of_index_eq hb hidx)

end Sys2Proof.Machine
end

section
/-! Words under masks, and tables of masks and matches (30_encoding.md R75, R76): rows that differ on a bit both masks
keep never match the same word. -/

namespace Sys2Proof

theorem and_eq_of_toNat {n : Nat} {w m p : BitVec n} (h : w.toNat &&& m.toNat = p.toNat) : w &&& m = p :=
  BitVec.eq_of_toNat_eq ((BitVec.toNat_and ..).trans h)

/-- Bit `k` as a number. -/
theorem toNat_getLsbD {n : Nat} (w : BitVec n) (k : Nat) : (w.getLsbD k).toNat = w.toNat / 2 ^ k % 2 := Nat.toNat_testBit ..

/-- Where no two entries of a list meet a predicate, one that meets it is all the predicate keeps. -/
theorem filter_eq_singleton {α : Type} {l : List α} {p : α → Bool} {r : α}
    (hd : l.Pairwise fun a b => ¬ (p a = true ∧ p b = true)) (hr : r ∈ l) (hp : p r = true) : l.filter p = [r] := by
  induction l with
  | nil => exact absurd hr List.not_mem_nil
  | cons x t ih =>
    obtain ⟨hx, ht⟩ := List.pairwise_cons.mp hd
    rcases List.mem_cons.mp hr with rfl | hr
    · rw [List.filter_cons_of_pos hp, List.filter_eq_nil_iff.mpr fun b hb hpb => hx b hb ⟨hp, hpb⟩]
    · rw [List.filter_cons_of_neg fun hpx => hx r hr ⟨hpx, hp⟩, ih ht hr]

/-- In a table whose rows pairwise differ on a bit that both masks keep, a row that matches a word is the only one. -/
theorem one_row_matches {α : Type} {n : Nat} {l : List α} {mask pat : α → BitVec n} {w : BitVec n} {r : α}
    (hd : l.Pairwise fun r q => pat r &&& mask q ≠ pat q &&& mask r) (hr : r ∈ l) (hm : (w &&& mask r == pat r) = true) :
    (l.filter fun q => w &&& mask q == pat q).length = 1 ∧ ∀ q ∈ l, (w &&& mask q == pat q) = true → q = r := by
  have hone : l.filter (fun q => w &&& mask q == pat q) = [r] := by
    refine filter_eq_singleton (hd.imp fun hne ⟨hx, hy⟩ => hne ?_) hr hm
    rw [← beq_iff_eq.mp hx, ← beq_iff_eq.mp hy, BitVec.and_assoc, BitVec.and_assoc, BitVec.and_comm (mask _)]
  exact ⟨congrArg List.length hone, fun q hq hqm => List.mem_singleton.mp (hone ▸ List.mem_filter.mpr ⟨hq, hqm⟩)⟩

/-- Every well-formed operation's word carries the fixed bits of its row: the model's law per operation, for all of them. -/
theorem encode_word_and_row (i : Instr) : Laws.EncodedRow.Statement i :=
  open Laws.EncodedRow in
  Instr.rec rdZp wrZp rdRsv0A wrRsv0A rdRsv0B wrRsv0B rdRam wrRam rdRsv1A wrRsv1A rdRsv1B wrRsv1B rdChar wrChar
    ioRdNone ioWrNone ioRdC1 ioWrC1 ioRdC2 ioWrC2 ioRdC12 ioWrC12 rdColor wrColor rdRsv2 wrRsv2 rdRsv3 wrRsv3
    rdBasic wrBasic rdKernal wrKernal vfChar vfGap0 vfZp vfGap1A vfGap1B vfRam tick exec reset keyDown keyUp kbdAdvance
    scan quickload cartInsert mapRegion keyRegister modRegister memRead memWrite vfetch discard i

end Sys2Proof
end

section
/-! BUS words (30_encoding.md R69, R74, R75). -/

namespace Sys2Proof

/-! ### What the decoder answers: a class of its row, well-formed, whose word is the one that came in -/

theorem decodeMemRead_class {a : Addr} (hw : ¬ ioWindow a = true) :
    decodeMemRead a ∈ memReadClasses a ∧ (decodeMemRead a).wellFormed = true := by
  rw [ioWindow_iff] at hw
  unfold decodeMemRead
  repeat' refine iteInduction (motive := fun i => i ∈ memReadClasses a ∧ i.wellFormed = true) (fun _ => ?_) fun _ => ?_
  all_goals exact ⟨by simp [memReadClasses], (addrIn_iff ..).mpr (by omega)⟩

theorem decodeMemWrite_class {a : Addr} (d : Byte) (hw : ¬ ioWindow a = true) :
    decodeMemWrite a d ∈ memWriteClasses a d ∧ (decodeMemWrite a d).wellFormed = true := by
  rw [ioWindow_iff] at hw
  unfold decodeMemWrite
  repeat' refine iteInduction (motive := fun i => i ∈ memWriteClasses a d ∧ i.wellFormed = true) (fun _ => ?_) fun _ => ?_
  all_goals exact ⟨by simp [memWriteClasses], (addrIn_iff ..).mpr (by omega)⟩

theorem decodeIoRead_class {a : Addr} (hw : ioWindow a = true) :
    decodeIoRead a ∈ (ioReadClasses a).map Prod.fst ∧ (decodeIoRead a).wellFormed = true := by
  unfold decodeIoRead
  cases h5 : a.getLsbD 5 <;> cases h4 : a.getLsbD 4 <;>
    exact ⟨by simp [ioReadClasses], (ioRow_iff ..).mpr ⟨hw, h5, h4⟩⟩

theorem decodeIoWrite_class {a : Addr} (d : Byte) (hw : ioWindow a = true) :
    decodeIoWrite a d ∈ (ioWriteClasses a d).map Prod.fst ∧ (decodeIoWrite a d).wellFormed = true := by
  unfold decodeIoWrite
  cases h5 : a.getLsbD 5 <;> cases h4 : a.getLsbD 4 <;>
    exact ⟨by simp [ioWriteClasses], (ioRow_iff ..).mpr ⟨hw, h5, h4⟩⟩

/-- A read cycle is one of the sixteen read classes. -/
theorem decodeCycle_rd (a : Addr) (d : Byte) :
    decodeCycle .rd a d ∈ memReadClasses a ++ (ioReadClasses a).map Prod.fst ∧
      (decodeCycle .rd a d).wellFormed = true := by
  by_cases hw : ioWindow a = true
  · rw [decodeCycle, if_pos hw]
    exact (decodeIoRead_class hw).imp_left (List.mem_append_right _)
  · rw [decodeCycle, if_neg hw]
    exact (decodeMemRead_class hw).imp_left (List.mem_append_left _)

/-- A write cycle is one of the sixteen write classes. -/
theorem decodeCycle_wr (a : Addr) (d : Byte) :
    decodeCycle .wr a d ∈ memWriteClasses a d ++ (ioWriteClasses a d).map Prod.fst ∧
      (decodeCycle .wr a d).wellFormed = true := by
  by_cases hw : ioWindow a = true
  · rw [decodeCycle, if_pos hw]
    exact (decodeIoWrite_class d hw).imp_left (List.mem_append_right _)
  · rw [decodeCycle, if_neg hw]
    exact (decodeMemWrite_class d hw).imp_left (List.mem_append_left _)

theorem encode_readClass {a : Addr} : ∀ i ∈ memReadClasses a ++ (ioReadClasses a).map Prod.fst, encode i = rdWord a := by
  simp [memReadClasses, ioReadClasses, encode]

theorem encode_writeClass {a : Addr} {d : Byte} :
    ∀ i ∈ memWriteClasses a d ++ (ioWriteClasses a d).map Prod.fst, encode i = wrWord a d := by
  simp [memWriteClasses, ioWriteClasses, encode]

theorem mem_busClasses_iff {a : Addr} {d : Byte} {i : Instr} : i ∈ busClasses a d ↔
    i ∈ memReadClasses a ++ (ioReadClasses a).map Prod.fst ∨ i ∈ memWriteClasses a d ++ (ioWriteClasses a d).map Prod.fst := by
  simp only [busClasses, List.map_append, List.mem_append]
  tauto

/-- A BUS word is its rw bit over its address (R69). -/
theorem rwBit_append_addr {w : BitVec 17} {b : BitVec 1} (h : (w.getLsbD 16).toNat = b.toNat) :
    b ++ w.extractLsb' 0 16 = w := by
  rw [toNat_getLsbD] at h
  apply BitVec.eq_of_toNat_eq
  rw [toNat_append_add, ← h, BitVec.extractLsb'_toNat, Nat.shiftRight_zero]
  omega

theorem rdWord_addr {w : BitVec 17} (h : w.getLsbD 16 = true) : rdWord (w.extractLsb' 0 16) = .bus w 0 :=
  congrArg (Frame.bus · 0) (rwBit_append_addr (b := 1#1) (h ▸ rfl))

theorem wrWord_addr {w : BitVec 17} (d : Byte) (h : w.getLsbD 16 = false) : wrWord (w.extractLsb' 0 16) d = .bus w d :=
  congrArg (Frame.bus · d) (rwBit_append_addr (b := 0#1) (h ▸ rfl))

/-- The class of a BUS word: one of the 32 at its address, well-formed, and encoded by that word (R69, R77). -/
theorem decodeBus_class (w : BitVec 17) (d : Byte) :
    decodeBus w d ∈ busClasses (w.extractLsb' 0 16) d ∧ (decodeBus w d).wellFormed = true ∧
      ∃ d', encode (decodeBus w d) = .bus w d' := by
  rw [decodeBus, busRw]
  cases hrw : w.getLsbD 16 with
  | true =>
    rw [if_pos rfl]
    obtain ⟨hmem, hwf⟩ := decodeCycle_rd (w.extractLsb' 0 16) d
    exact ⟨mem_busClasses_iff.mpr (.inl hmem), hwf, 0, (encode_readClass _ hmem).trans (rdWord_addr hrw)⟩
  | false =>
    rw [if_neg Bool.false_ne_true]
    obtain ⟨hmem, hwf⟩ := decodeCycle_wr (w.extractLsb' 0 16) d
    exact ⟨mem_busClasses_iff.mpr (.inr hmem), hwf, d, (encode_writeClass _ hmem).trans (wrWord_addr d hrw)⟩

/-! ### The 32 rows -/

theorem busClasses_subset_busRows (a : Addr) (d : Byte) : ∀ i ∈ busClasses a d, i ∈ busRows.map fun r => r.make a d := by
  simp [busClasses, memReadClasses, memWriteClasses, ioReadClasses, ioWriteClasses, busRows]

theorem busRows_disjoint : busRows.Pairwise fun r q => r.pat &&& q.mask ≠ q.pat &&& r.mask := by decide

theorem BusRow.row_make {r : BusRow} (hr : r ∈ busRows) (a : Addr) (d : Byte) :
    (r.make a d).row = (r.mask.toNat, r.pat.toNat) := by
  fin_cases hr <;> rfl

/-- A row's class is encoded by the row's rw bit over its address; the data byte beside it is the row's operand, if it has
one. -/
theorem BusRow.encode_make {r : BusRow} (hr : r ∈ busRows) (a : Addr) (d : Byte) :
    ∃ d', encode (r.make a d) = .bus (r.pat.extractLsb' 16 1 ++ a) d' ∧ r.make a d' = r.make a d := by
  fin_cases hr <;> exact ⟨_, rfl, rfl⟩

theorem BusRow.matches_of_encode {r : BusRow} (hr : r ∈ busRows) {a : Addr} {d d' : Byte} {w : BitVec 17}
    (hwf : (r.make a d).wellFormed = true) (he : encode (r.make a d) = .bus w d') : r.matches w = true := by
  have h := encode_word_and_row _ hwf
  rw [he, BusRow.row_make hr] at h
  exact beq_iff_eq.mpr (and_eq_of_toNat h)

/-- Settles O3: the decoded class's own row matches the word that encodes it, and no second row does. -/
theorem everyBusWordMatchesOneRow : Obligations.EveryBusWordMatchesOneRow := by
  intro w d
  obtain ⟨hmem, hwf, d', he⟩ := decodeBus_class w d
  obtain ⟨r, hr, hmake⟩ := List.mem_map.mp (busClasses_subset_busRows _ _ _ hmem)
  rw [← hmake] at hwf he
  obtain ⟨hone, honly⟩ := one_row_matches busRows_disjoint hr (BusRow.matches_of_encode hr hwf he)
  refine ⟨hone, fun q hq hm => ?_⟩
  obtain rfl := honly q hq hm
  exact ⟨congrArg Except.ok hmake.symm, hwf⟩

/-- A well-formed bus-cycle class comes back from its word. -/
theorem decode_encode_busClass {a : Addr} {d : Byte} {i : Instr} (hi : i ∈ busClasses a d) (hwf : i.wellFormed = true) :
    decode (encode i) = .ok i := by
  obtain ⟨r, hr, rfl⟩ := List.mem_map.mp (busClasses_subset_busRows _ _ _ hi)
  obtain ⟨d', he, hd'⟩ := BusRow.encode_make hr a d
  obtain ⟨-, hrow⟩ := everyBusWordMatchesOneRow (r.pat.extractLsb' 16 1 ++ a) d'
  obtain ⟨hdec, -⟩ := hrow r hr (BusRow.matches_of_encode hr hwf he)
  rw [he, hdec, BitVec.extractLsb'_append_eq_right, hd']

end Sys2Proof
end

section
/-! VF words (30_encoding.md R71, R76). -/

namespace Sys2Proof

theorem decodeVf_class (va : VAddr) : decodeVf va ∈ fetchClasses va ∧ (decodeVf va).wellFormed = true := by
  unfold decodeVf
  repeat' refine iteInduction (motive := fun i => i ∈ fetchClasses va ∧ i.wellFormed = true) (fun _ => ?_) fun _ => ?_
  all_goals exact ⟨by simp [fetchClasses], (vaddrIn_iff ..).mpr (by omega)⟩

theorem encode_fetchClass {va : VAddr} : ∀ i ∈ fetchClasses va, encode i = .vf va := by simp [fetchClasses, encode]

/-! ### The six rows -/

theorem vfRows_make (va : VAddr) : (vfRows.map fun r => r.make va) = fetchClasses va := rfl

theorem vfRows_disjoint : vfRows.Pairwise fun r q => r.pat &&& q.mask ≠ q.pat &&& r.mask := by decide

theorem VfRow.row_make {r : VfRow} (hr : r ∈ vfRows) (va : VAddr) : (r.make va).row = (r.mask.toNat, r.pat.toNat) := by
  fin_cases hr <;> rfl

theorem VfRow.encode_make {r : VfRow} (hr : r ∈ vfRows) (va : VAddr) : encode (r.make va) = .vf va :=
  encode_fetchClass _ (vfRows_make va ▸ List.mem_map_of_mem hr)

theorem VfRow.matches_of_wellFormed {r : VfRow} (hr : r ∈ vfRows) {va : VAddr} (hwf : (r.make va).wellFormed = true) :
    r.matches va = true := by
  have h := encode_word_and_row _ hwf
  rw [VfRow.encode_make hr, VfRow.row_make hr] at h
  exact beq_iff_eq.mpr (and_eq_of_toNat h)

/-- Settles O4: the decoded class's own row matches the video address, and no second row does. -/
theorem everyVideoAddressMatchesOneRow : Obligations.EveryVideoAddressMatchesOneRow := by
  intro va
  obtain ⟨hmem, hwf⟩ := decodeVf_class va
  obtain ⟨r, hr, hmake⟩ := List.mem_map.mp (vfRows_make va ▸ hmem)
  rw [← hmake] at hwf
  obtain ⟨hone, honly⟩ := one_row_matches vfRows_disjoint hr (VfRow.matches_of_wellFormed hr hwf)
  refine ⟨hone, fun q hq hm => ?_⟩
  obtain rfl := honly q hq hm
  exact ⟨congrArg Except.ok hmake.symm, hwf⟩

/-- A well-formed video-fetch class comes back from its word. -/
theorem decode_encode_fetchClass {va : VAddr} {i : Instr} (hi : i ∈ fetchClasses va) (hwf : i.wellFormed = true) :
    decode (encode i) = .ok i := by
  obtain ⟨r, hr, rfl⟩ := List.mem_map.mp (vfRows_make va ▸ hi)
  obtain ⟨-, hrow⟩ := everyVideoAddressMatchesOneRow va
  obtain ⟨hdec, -⟩ := hrow r hr (VfRow.matches_of_wellFormed hr hwf)
  rw [VfRow.encode_make hr, hdec]

end Sys2Proof
end

section
/-! HOST words (30_encoding.md R72, R73): what a row names, and each field of a word as a number. -/

namespace Sys2Proof

/-! ### Fields as numbers -/

theorem toNat_opCode (w : BitVec 32) : (w.extractLsb' 28 4).toNat = w.toNat / 2 ^ 28 := by
  rw [BitVec.extractLsb'_toNat, Nat.shiftRight_eq_div_pow]
  omega

theorem spaceOf_eq_iff (b : Bool) (sp : Space) : spaceOf b = sp ↔ b.toNat = (spaceBit sp).toNat := by
  cases b <;> cases sp <;> decide

theorem accessOf_eq_iff (b : Bool) (acc : Access) : accessOf b = acc ↔ b.toNat = (accessBit acc).toNat := by
  cases b <;> cases acc <;> decide

theorem layerOf_eq_iff (b : Bool) (layer : Layer) : layerOf b = layer ↔ b.toNat = (layerBit layer).toNat := by
  cases b <;> cases layer <;> decide

theorem modeOf_eq_iff (b : Bool) (mode : ExecMode) : modeOf b = mode ↔ b.toNat = (modeBit mode).toNat := by
  cases b <;> cases mode <;> decide

theorem toNat_spaceBit_spaceOf (b : Bool) : (spaceBit (spaceOf b)).toNat = b.toNat := ((spaceOf_eq_iff b _).mp rfl).symm

theorem toNat_accessBit_accessOf (b : Bool) : (accessBit (accessOf b)).toNat = b.toNat := ((accessOf_eq_iff b _).mp rfl).symm

theorem toNat_layerBit_layerOf (b : Bool) : (layerBit (layerOf b)).toNat = b.toNat := ((layerOf_eq_iff b _).mp rfl).symm

theorem toNat_modeBit_modeOf (b : Bool) : (modeBit (modeOf b)).toNat = b.toNat := ((modeOf_eq_iff b _).mp rfl).symm

/-! ### What the rows name -/

/-- How many bits the row of an operation code names, from bit 0 (R73). -/
def hostFieldBits : Nat → Nat
  | 0x1 => 1
  | 0x3 | 0x4 | 0x6 => 8
  | 0x9 | 0xB => 7
  | 0xA => 16
  | 0xC => 17
  | 0xD => 25
  | 0xE => 14
  | _ => 0

theorem hostFieldBits_le (c : Nat) : hostFieldBits c ≤ 28 := by
  unfold hostFieldBits
  split <;> decide

theorem named_eq_ok_iff {w : BitVec 32} {n : Nat} {i j : Instr} :
    named w n i = .ok j ↔ w.toNat % 2 ^ 28 < 2 ^ n ∧ i = j := by
  unfold named
  split <;> simp_all

/-- The decoder admits a HOST word by the width of its row alone. -/
theorem exists_decodeHost_ok_iff (w : BitVec 32) (ops : HostOperands) :
    (∃ i, decodeHost w ops = .ok i) ↔ w.toNat % 2 ^ 28 < 2 ^ hostFieldBits (w.toNat / 2 ^ 28) := by
  rw [← toNat_opCode]
  unfold decodeHost hostFieldBits
  split <;> simp only [named_eq_ok_iff, exists_and_left, exists_eq', and_true, *]

/-- The 16 rows are their codes and widths. -/
theorem hostRows_eq : hostRows = (List.range 16).map fun c =>
    (BitVec.ofNat 32 (2 ^ 32 - 2 ^ hostFieldBits c), BitVec.ofNat 32 (c * 2 ^ 28)) := by decide

/-- A word under a row's mask is the row's match exactly if it has the row's code and nothing above its named bits. -/
theorem and_hostRow_iff (w : BitVec 32) {c k : Nat} (hc : c < 16) (hk : k ≤ 28) :
    w &&& BitVec.ofNat 32 (2 ^ 32 - 2 ^ k) = BitVec.ofNat 32 (c * 2 ^ 28) ↔
      w.toNat / 2 ^ 28 = c ∧ w.toNat % 2 ^ 28 < 2 ^ k := by
  have hpos := Nat.two_pow_pos k
  have hle : 2 ^ k ≤ 2 ^ 28 := Nat.pow_le_pow_right (by decide) hk
  rw [← BitVec.toNat_inj, BitVec.toNat_and, BitVec.toNat_ofNat, BitVec.toNat_ofNat, Nat.mod_eq_of_lt (by omega),
    Nat.mod_eq_of_lt (by omega), land_high w.isLt (by omega)]
  have hlow := Nat.mod_lt w.toNat hpos
  have hsum := Nat.div_add_mod' w.toNat (2 ^ k)
  constructor
  · intro h
    omega
  · rintro ⟨hcode, hnamed⟩
    have hmod := Nat.mod_mod_of_dvd w.toNat (pow_dvd_pow 2 hk)
    rw [Nat.mod_eq_of_lt hnamed] at hmod
    omega

/-- Settles O5: both sides say that the word's low 28 bits are below the width of its code's row. -/
theorem hostWordDecodesIffNamed : Obligations.HostWordDecodesIffNamed := by
  intro w ops
  have hrow (c : Nat) (hc : c < 16) := and_hostRow_iff w hc (hostFieldBits_le c)
  simp only [decode, exists_decodeHost_ok_iff, hostRows_eq, List.mem_map, List.mem_range, exists_exists_and_eq_and]
  constructor
  · intro h
    have hc : w.toNat / 2 ^ 28 < 16 := by omega
    exact ⟨_, hc, (hrow _ hc).mpr ⟨rfl, h⟩⟩
  · rintro ⟨c, hc, h⟩
    obtain ⟨rfl, hnamed⟩ := (hrow c hc).mp h
    exact hnamed

/-! ### There and back -/

theorem hostWord_sameWord {w : BitVec 32} {op : BitVec 4} {f : BitVec 28} (ops ops' : HostOperands)
    (hop : (w.extractLsb' 28 4).toNat = op.toNat) (hf : w.toNat % 2 ^ 28 = f.toNat) :
    (hostWord op f ops').sameWord (.host w ops) = true := by
  rw [toNat_opCode] at hop
  refine beq_iff_eq.mpr (BitVec.eq_of_toNat_eq ?_)
  rw [toNat_append_add]
  omega

/-- What a HOST word decodes to encodes to that word: its fields, side by side, are all the bits its row names. -/
theorem decodeHost_sameWord {w : BitVec 32} {ops : HostOperands} {i : Instr} (h : decodeHost w ops = .ok i) :
    i.wellFormed = true ∧ (encode i).sameWord (.host w ops) = true := by
  unfold decodeHost at h
  have hlt := (w.extractLsb' 28 4).isLt
  generalize hc : (w.extractLsb' 28 4).toNat = c at h hlt
  interval_cases c
  all_goals
    obtain ⟨hnamed, rfl⟩ := named_eq_ok_iff.mp h
    refine ⟨rfl, hostWord_sameWord _ _ hc ?_⟩
    simp only [toNat_append_add, toNat_spaceBit_spaceOf, toNat_accessBit_accessOf, toNat_layerBit_layerOf,
      toNat_modeBit_modeOf, toNat_getLsbD, BitVec.extractLsb'_toNat, Nat.shiftRight_eq_div_pow, BitVec.reduceToNat]
    omega

/-- An assembled HOST word decodes to `i` if every word with its code and its low 28 bits does. -/
theorem decode_hostWord {op : BitVec 4} {f : BitVec 28} {ops : HostOperands} {i : Instr}
    (hf : f.toNat < 2 ^ hostFieldBits op.toNat)
    (hd : ∀ w : BitVec 32, w.extractLsb' 28 4 = op → w.toNat % 2 ^ 28 = f.toNat →
      decodeHost w ops = named w (hostFieldBits op.toNat) i) : decode (hostWord op f ops) = .ok i := by
  have hw : (op ++ f).toNat % 2 ^ 28 = f.toNat := by
    rw [toNat_append_add, Nat.mul_add_mod_self_right, Nat.mod_eq_of_lt f.isLt]
  exact (hd _ BitVec.extractLsb'_append_eq_left hw).trans (named_eq_ok_iff.mpr ⟨hw ▸ hf, rfl⟩)

end Sys2Proof
end

section
/-! Decoding and encoding over all three interfaces (30_encoding.md R65, R69, R71, R73), and the words of the spec's
vectors. -/

namespace Sys2Proof

/-- Settles O1: the BUS and VF classes by their row's match, the HOST operations field by field. -/
theorem decodeEncodeRoundTrip : Obligations.DecodeEncodeRoundTrip := by
  intro i hwf
  cases i with
  | rdZp a | rdRsv0A a | rdRsv0B a | rdRam a | rdRsv1A a | rdRsv1B a | rdChar a | rdColor a | rdRsv2 a | rdRsv3 a | rdBasic a
  | rdKernal a => exact decode_encode_busClass (a := a) (d := 0) (by simp [busClasses, memReadClasses]) hwf
  | ioRdNone a | ioRdC1 a | ioRdC2 a | ioRdC12 a =>
    exact decode_encode_busClass (a := a) (d := 0) (by simp [busClasses, ioReadClasses]) hwf
  | wrZp a d | wrRsv0A a d | wrRsv0B a d | wrRam a d | wrRsv1A a d | wrRsv1B a d | wrChar a d | wrColor a d | wrRsv2 a d
  | wrRsv3 a d | wrBasic a d | wrKernal a d =>
    exact decode_encode_busClass (a := a) (d := d) (by simp [busClasses, memWriteClasses]) hwf
  | ioWrNone a d | ioWrC1 a d | ioWrC2 a d | ioWrC12 a d =>
    exact decode_encode_busClass (a := a) (d := d) (by simp [busClasses, ioWriteClasses]) hwf
  | vfChar va | vfGap0 va | vfZp va | vfGap1A va | vfGap1B va | vfRam va =>
    exact decode_encode_fetchClass (va := va) (by simp [fetchClasses]) hwf
  | tick | reset | kbdAdvance u | quickload p | cartInsert p | discard =>
    exact decode_hostWord (by decide) fun w hop _ => by rw [decodeHost, hop]; rfl
  | exec mode e | keyDown code | keyUp code | scan cols | mapRegion sp acc layer bank base len off
  | keyRegister code col row mask | modRegister m col row | memRead sp a | memWrite sp a d | vfetch va =>
    refine decode_hostWord ?_ fun w hop hw => ?_
    · simp only [toNat_append_add, hostFieldBits, BitVec.reduceToNat]
      bv_omega
    · simp only [toNat_append_add, BitVec.reduceToNat] at hw
      rw [decodeHost, hop]
      simp only [BitVec.reduceToNat, hostFieldBits]
      congr
      all_goals
        simp only [spaceOf_eq_iff, accessOf_eq_iff, layerOf_eq_iff, modeOf_eq_iff, ← BitVec.toNat_inj,
          BitVec.extractLsb'_toNat, toNat_getLsbD, Nat.shiftRight_eq_div_pow]
        bv_omega

/-- Settles O2: every word a decoder admits is made of its row's code and fields. -/
theorem decodedIsWellFormed : Obligations.DecodedIsWellFormed := by
  rintro (⟨w, d⟩ | va | ⟨w, ops⟩) i h
  case bus =>
    cases h
    obtain ⟨-, hwf, d', he⟩ := decodeBus_class w d
    exact ⟨hwf, he ▸ beq_self_eq_true w⟩
  case vf =>
    cases h
    obtain ⟨hmem, hwf⟩ := decodeVf_class va
    rw [encode_fetchClass _ hmem]
    exact ⟨hwf, beq_self_eq_true va⟩
  case host => exact decodeHost_sameWord h

/-- Settles O6: each word evaluates. -/
theorem specWordsDecode : Obligations.SpecWordsDecode := by
  refine ⟨?_, ?_, ?_, ?_, ?_, ?_, ?_, ?_, ?_, ?_, ?_, ?_⟩ <;> decide

end Sys2Proof
end

section
/-! One step (30_encoding.md R72, R77, R78; 60_exceptions.md R188, R198). -/

namespace Sys2Proof.Machine

theorem step_of_inbox_nil {s : State} (h : s.inbox = []) : step s = .next s := by rw [step, h]; rfl

theorem step_of_decode_ok {s : State} {f : Frame} {rest : List Frame} {i : Instr} (h : s.inbox = f :: rest)
    (hd : decode f = .ok i) : step s = exec i (s.withInbox rest) := by
  simp only [step, h, hd]

theorem step_of_decode_error {s : State} {f : Frame} {rest : List Frame} {e : DecodeError} (h : s.inbox = f :: rest)
    (hd : decode f = .error e) : step s = rejectFrame (s.withInbox rest) := by
  simp only [step, h, hd]

/-- Settles O7: the two branches of a step on a decodable input and on none. -/
theorem stepRunsDecodedInstruction : Obligations.StepRunsDecodedInstruction :=
  ⟨fun _ _ _ _ h hd => step_of_decode_ok h hd, fun _ h => step_of_inbox_nil h⟩

/-- Settles O8: a rejection is a refusal, whose reason on a discarded block is the block. -/
theorem undecodableFrameIsRefused : Obligations.UndecodableFrameIsRefused := by
  intro s f rest e h hd
  rw [step_of_decode_error h hd, rejectFrame]
  by_cases hv : s.valid = true
  · rw [operate_valid _ ((s.withInbox_valid rest).trans hv), if_pos hv]
    rfl
  · rw [operate_invalid _ ((s.withInbox_valid rest).trans (Bool.eq_false_of_not_eq_true hv)), if_neg hv]
    rfl

end Sys2Proof.Machine
end

section
/-! The tick and the bus-cycle classes (40_tick_engine.md R81 to R101; 41_bus_transactions.md R105 to R132, R138, R140). -/

namespace Sys2Proof.Machine

/-! ### Each class is one tick of a scripted CPU (R79) -/

theorem exec_memReadClasses {a : Addr} {i : Instr} (hi : i ∈ memReadClasses a) (s : State) :
    exec i s = tickOp (State.memReadCycle Config.chips a) s := by
  simp only [memReadClasses, List.mem_cons, List.not_mem_nil, or_false] at hi
  rcases hi with rfl | rfl | rfl | rfl | rfl | rfl | rfl | rfl | rfl | rfl | rfl | rfl <;> rfl

theorem exec_ioReadClasses {a : Addr} {c : Instr × Bool × Bool} (hc : c ∈ ioReadClasses a) (s : State) :
    exec c.1 s = tickOp (State.ioReadCycle Config.chips c.2.1 c.2.2 a) s := by
  simp only [ioReadClasses, List.mem_cons, List.not_mem_nil, or_false] at hc
  rcases hc with rfl | rfl | rfl | rfl <;> rfl

theorem exec_ioWriteClasses {a : Addr} {d : Byte} {c : Instr × Bool × Bool} (hc : c ∈ ioWriteClasses a d) (s : State) :
    exec c.1 s = tickOp (State.ioWriteCycle Config.chips c.2.1 c.2.2 a d) s := by
  simp only [ioWriteClasses, List.mem_cons, List.not_mem_nil, or_false] at hc
  rcases hc with rfl | rfl | rfl | rfl <;> rfl

/-- Settles O28: every memory read class is the scripted CPU's memory read. -/
theorem memoryReadClasses : Obligations.MemoryReadClasses :=
  fun s _ hv _ hi => (exec_memReadClasses hi s).trans (memRead_op hv)

/-- Settles O29: every memory write class is the scripted CPU's memory write. -/
theorem memoryWriteClasses : Obligations.MemoryWriteClasses :=
  fun s _ _ hv _ hi => (exec_memWriteClasses hi s).trans (memWrite_op hv)

/-- Settles O30: every I/O read class is the scripted CPU's read with that class's selects; inside the window the VIC's is
VIC_SEL. -/
theorem ioReadClassesComplete : Obligations.IoReadClasses := by
  intro s a hv hlo hhi c hc
  rw [exec_ioReadClasses hc, ioRead_op hv, csvOf_window s.params hlo hhi]

/-- Settles O31: every I/O write class is the scripted CPU's write with that class's selects; inside the window the VIC's is
VIC_SEL. -/
theorem ioWriteClassesComplete : Obligations.IoWriteClasses := by
  intro s a d hv hlo hhi c hc
  rw [exec_ioWriteClasses hc, ioWrite_op hv, csvOf_window s.params hlo hhi]

/-! ### The data bus (R100) -/

/-- On a read a selected chip drives the bus. -/
theorem driven_rd (cs : Bool) (out bus : Byte) : driven cs .rd out bus = if cs then out else bus := by
  simp [driven]

/-- Settles O32: the data bus after a read's chips is the multiplexer of R100 three times over. -/
theorem lastSelectedChipDrives : Obligations.LastSelectedChipDrives := by
  intro s a hv hlo hhi c hc
  refine ⟨_, ioReadClassesComplete s a hv hlo hhi c hc, ?_⟩
  simp only [State.chipsTicked, State.busPins, driven_rd]
  rfl

/-! ### The interrupt lines (R83) -/

/-- A tick operation sees of two valid blocks what its cycle makes of them. -/
theorem tickOp_congr {f : State → State} {s t : State} (hs : s.valid = true) (ht : t.valid = true) (h : f s = f t) :
    tickOp f s = tickOp f t := by
  rw [tickOp_valid f hs, tickOp_valid f ht, h]

/-- Settles O35: the cycle of each kind clears both lines before it does anything else. -/
theorem interruptLinesAreFresh : Obligations.InterruptLinesAreFresh := by
  intro s a d irq nmi hv i hi
  simp only [busClasses, List.map_append, List.mem_append, List.mem_map] at hi
  rcases hi with (hi | hi) | ⟨c, hc, rfl⟩ | ⟨c, hc, rfl⟩
  · rw [exec_memReadClasses hi, exec_memReadClasses hi]
    exact tickOp_congr hv hv rfl
  · rw [exec_memWriteClasses hi, exec_memWriteClasses hi]
    exact tickOp_congr hv hv rfl
  · rw [exec_ioReadClasses hc, exec_ioReadClasses hc]
    exact tickOp_congr hv hv rfl
  · rw [exec_ioWriteClasses hc, exec_ioWriteClasses hc]
    exact tickOp_congr hv hv rfl

/-! ### The CPU region table (R140) -/

theorem State.audioPush_withRegionsCpu (s : State) (x : Sample) (rs : List Region) :
    State.audioPush x { s with regionsCpu := rs } = { s.audioPush x with regionsCpu := rs } := by
  unfold State.audioPush
  dsimp only
  split <;> rfl

/-- The chips' part of a tick neither reads nor writes the CPU table: the VIC fetches over the VID table (R99). -/
theorem State.chipsTicked_withRegionsCpu (u : State) (rs : List Region) (c1 c2 cv : Bool) :
    State.chipsTicked { u with regionsCpu := rs } c1 c2 cv = { u.chipsTicked c1 c2 cv with regionsCpu := rs } := by
  have hf : State.vfetch { u with regionsCpu := rs } = u.vfetch := State.vfetch_congr rfl rfl rfl
  simp only [State.chipsTicked, hf, State.audioPush_withRegionsCpu]
  split <;> rfl

/-- Settles O37: what step 2 leaves inside the window has the memory it found, and the CPU table is not read. -/
theorem windowCyclesIgnoreTheMap : Obligations.WindowCyclesIgnoreTheMap := by
  intro s a d rs hv c hc
  have hv' : State.valid { s with regionsCpu := rs } = true := hv
  rcases List.mem_append.mp hc with hc | hc
  · rw [exec_ioReadClasses hc, exec_ioReadClasses hc, ioRead_op hv, ioRead_op hv']
    exact ⟨_, rfl, State.chipsTicked_mem .., congrArg _ (State.chipsTicked_withRegionsCpu
      { s with pins := s.busPins a .rd (Config.draw s.draws 0), draws := s.draws + 1 } rs ..)⟩
  · rw [exec_ioWriteClasses hc, exec_ioWriteClasses hc, ioWrite_op hv, ioWrite_op hv']
    exact ⟨_, rfl, State.chipsTicked_mem .., congrArg _ (State.chipsTicked_withRegionsCpu
      { s with pins := s.busPins a .wr d } rs ..)⟩

/-! ### The tick (R81) -/

/-- A write through the map neither reads nor writes the CPU's sub-state and the pins. -/
theorem State.memWrite_withCpuPins (s : State) (c : ChipState) (p : Pins) (sp : Space) (a : Addr) (v : Byte) :
    State.memWrite { s with cpu := c, pins := p } sp a v = { s.memWrite sp a v with cpu := c, pins := p } := by
  have hk : State.writeKey { s with cpu := c, pins := p } sp a = s.writeKey sp a :=
    State.writeKey_congr (by cases sp <;> rfl) a
  unfold State.memWrite
  rw [hk]
  split <;> rfl

/-- Step 2, after the CPU has driven the pins `p` (R89, R90). -/
theorem State.transaction_driven (s : State) (c : ChipState) (p : Pins) :
    State.transaction { s with cpu := c, pins := p } =
      { (if ioWindow p.addr = false ∧ p.rw = .wr then s.memWrite .cpu p.addr p.data else s) with
        cpu := c
        pins := { p with
          data := if p.rw = .wr then p.data else if ioWindow p.addr then Config.draw s.draws 0 else s.memRead .cpu p.addr }
        draws := if ioWindow p.addr = true ∧ p.rw = .rd then s.draws + 1 else s.draws } := by
  obtain ⟨addr, data, rw, irq, nmi, other⟩ := p
  cases hw : ioWindow addr <;> cases rw <;> simp only [State.transaction, hw, reduceCtorEq, and_self, and_true, and_false,
    if_true, if_false, Bool.false_eq_true]
  case false.rd => rfl
  case false.wr => exact (State.memWrite_withCpuPins s c _ .cpu addr data).trans (by simp)
  case true.rd => rfl

theorem ioWindow_eq_decide (a : Addr) : ioWindow a = decide (0x9000 ≤ a.toNat ∧ a.toNat ≤ 0x93FF) :=
  Bool.eq_iff_iff.mpr ((ioWindow_iff a).trans decide_eq_true_iff.symm)

/-- Settles O27: step 2's outcome, then lines 3 to 6 of the pseudocode on it, with both lines clear. -/
theorem tickIsOneCycle : Obligations.TickIsOneCycle := by
  intro s hv
  dsimp only
  rw [show exec .tick s = tickOp (State.tick Config.chips) s from rfl, tickOp_valid _ hv, ← ioWindow_eq_decide]
  have hstep2 : (s.cpuStep Config.chips).clearLines.transaction = _ :=
    State.transaction_driven s (Config.chips.cpuTick s.cpu s.pins).1 (Pins.clearLines (Config.chips.cpuTick s.cpu s.pins).2)
  rw [State.tick, State.cycle, hstep2]
  exact congrArg _ (State.chipSteps_eq rfl rfl _ _ _)

end Sys2Proof.Machine
end

section
/-! The audio buffer (40_tick_engine.md R102, R103; 10_state.md R29). -/

namespace Sys2Proof.Machine

theorem State.audioPush_full {s : State} (h : s.audio.pos + 1 = s.params.audioCap) (x : Sample) :
    s.audioPush x = { s with
      audio := { buf := s.audio.buf.set s.audio.pos x, pos := 0 }
      trace := s.trace ++ [.audioSink ((s.audio.buf.set s.audio.pos x).take s.params.audioCap) s.params.audioCap] } := if_pos h

theorem State.audioPush_notFull {s : State} (h : s.audio.pos + 1 ≠ s.params.audioCap) (x : Sample) :
    s.audioPush x = { s with audio := { buf := s.audio.buf.set s.audio.pos x, pos := s.audio.pos + 1 } } := if_neg h

theorem State.audioPush_buf (s : State) (x : Sample) : (s.audioPush x).audio.buf = s.audio.buf.set s.audio.pos x := by
  unfold State.audioPush
  split <;> rfl

/-- Settles O38: the invariant's buffer holds AUDIO_CAP samples, so the sink gets all of it, and has the position inside. -/
theorem audioPushFlushesWhenFull : Obligations.AudioPushFlushesWhenFull := by
  intro s x h
  have hlen : (s.audio.buf.set s.audio.pos x).length = s.params.audioCap := List.length_set.trans h.audioLength
  refine ⟨fun hfull => ?_, fun hn => State.audioPush_notFull hn x, ?_⟩
  · rw [State.audioPush_full hfull, List.take_of_length_le hlen.le]
  · rw [State.audioPush_buf]
    exact List.getElem?_set_self (h.audioLength ▸ h.audioInside)

end Sys2Proof.Machine
end

section
/-! No step stops (40_tick_engine.md R104; 60_exceptions.md R186), and none touches the parameters (10_state.md R32) or the
rest of the input (log 1). -/

namespace Sys2Proof.Machine

/-- Every operation answers a next state, a refused one too (R188). -/
theorem exec_next (i : Instr) (s : State) : ∃ t, exec i s = .next t := by
  cases i <;> exact ⟨_, rfl⟩

/-- What the block is given from outside: its input and its parameters. -/
def State.given (s : State) : List Frame × Params := (s.inbox, s.params)

theorem State.given_memWrite (u : State) (sp : Space) (a : Addr) (v : Byte) : (u.memWrite sp a v).given = u.given := by
  simp [State.given]

theorem State.given_chipSteps (u : State) (c1 c2 cv : Bool) : (u.chipSteps Config.chips c1 c2 cv).given = u.given := by
  simp [State.given]

/-- No named update touches the input or the parameters. -/
theorem updates_given (i : Instr) (s : State) : Updates (fun u v => v.given = u.given) i s where
  same _ := rfl
  chain hab hbc := hbc.trans hab
  refuse _ _ := rfl
  answer _ _ := rfl
  close _ := rfl
  drawn _ := rfl
  emit _ _ := rfl
  pins _ _ := rfl
  chips := State.given_chipSteps
  cpu _ := rfl
  write := State.given_memWrite
  keyDown _ _ _ := rfl
  keyUp _ _ _ := rfl
  advance _ _ _ := rfl
  bind _ _ _ _ _ := rfl
  register _ _ _ _ _ _ := rfl
  reset _ := rfl
  discard _ := rfl
  region sp _ _ _ _ _ _ _ _ _ := by cases sp <;> rfl
  cart _ _ _ _ _ := rfl

theorem exec_given {i : Instr} {s t : State} (he : exec i s = .next t) : t.given = s.given := (updates_given i s).exec he

theorem rejectFrame_given {s t : State} (he : rejectFrame s = .next t) : t.given = s.given := by
  rcases operate_cases he with ⟨-, rfl⟩ | ⟨-, rfl⟩ <;> rfl

/-- Settles O9: a step idles on no input, and otherwise takes one frame and executes or refuses it. -/
theorem stepNeverStops : Obligations.StepNeverStops := by
  intro s
  suffices h : ∃ t, step s = .next t ∧ t.given = (s.inbox.tail, s.params) by
    obtain ⟨t, hs, hg⟩ := h
    exact ⟨t, hs, Prod.mk.inj hg⟩
  cases hin : s.inbox with
  | nil => exact ⟨s, step_of_inbox_nil hin, congrArg (·, s.params) hin⟩
  | cons f rest =>
    cases hd : decode f with
    | ok i =>
      obtain ⟨t, ht⟩ := exec_next i (s.withInbox rest)
      exact ⟨t, (step_of_decode_ok hin hd).trans ht, exec_given ht⟩
    | error e => exact ⟨_, step_of_decode_error hin hd, rejectFrame_given rfl⟩

end Sys2Proof.Machine
end

section
/-! What the fetch capability takes of a wider address (20_memory.md R53, 30_encoding.md R71, 41_bus_transactions.md R139). -/

namespace Sys2Proof.Machine

/-- The color index is bits 9:0 (R53). -/
theorem colorIndex_eq_mod (va : Addr) : colorIndex va = va.toNat % 0x400 := by
  rw [colorIndex, BitVec.extractLsb'_toNat, Nat.shiftRight_zero]

theorem videoAddr_videoAddr (va : Addr) : videoAddr (videoAddr va) = videoAddr va := videoAddr_setWidth _

theorem colorIndex_videoAddr (va : Addr) : colorIndex (videoAddr va) = colorIndex va := by
  rw [colorIndex_eq_mod, colorIndex_eq_mod, toNat_videoAddr]
  omega

/-- A fetch takes of its address the video address and the color index only, and the cut keeps both. -/
theorem State.vfetch_videoAddr (s : State) (n : Nat) (va : Addr) : s.vfetch n (videoAddr va) = s.vfetch n va := by
  rw [State.vfetch, State.vfetch, videoAddr_videoAddr, colorIndex_videoAddr]

/-- Settles O26: R139's cut is `videoAddr`, and the two fields are those of R52. -/
theorem videoAddressIsCut : Obligations.VideoAddressIsCut := by
  intro s n va
  rw [← videoAddr_eq_and, ← colorIndex_eq_mod]
  exact ⟨(s.vfetch_videoAddr n va).symm, s.vfetch_low n va, s.vfetch_color n va⟩

end Sys2Proof.Machine
end

section
/-! The CPU table of construction (20_memory.md R41, R50): which region of it covers an address, and what a read and a write
there reach. -/

namespace Sys2Proof.Machine

/-- The CPU table of construction with every expansion bank fitted: all regions that construction can register. -/
abbrev fullCpuLayout : List Region := cpuLayout #v[true, true, true, true]

/-- Construction registers the regions of the banks that are fitted. -/
theorem mem_cpuLayout_iff {fitted : Vector Bool 4} {r : Region} :
    r ∈ cpuLayout fitted ↔ r ∈ fullCpuLayout ∧ r.bank.present fitted = true := by
  constructor
  · intro hr
    obtain ⟨hok, -⟩ := cpuLayout_ok fitted
    obtain ⟨-, -, hp, -⟩ := hok r hr
    exact ⟨(cpuLayout_sublist fitted).subset hr, hp⟩
  · rintro ⟨hr, hp⟩
    fin_cases hr <;> simp_all [cpuLayout, expRegions, expRegion, systemRegion, Bank.present]

/-- No two regions of construction share an address, in one layer or across both. -/
theorem eq_of_inRange_fullCpuLayout {r q : Region} {a : Addr} (hr : r ∈ fullCpuLayout) (hq : q ∈ fullCpuLayout)
    (hra : inRange r.base r.len a) (hqa : inRange q.base q.len a) : r = q := by
  have hone : ∀ r ∈ fullCpuLayout, ∀ q ∈ fullCpuLayout, r.overlaps q = true → r = q := by decide
  have hlen : ∀ r ∈ fullCpuLayout, 1 ≤ r.len := by decide
  exact hone r hr q hq ((Region.overlaps_iff (hlen r hr) (hlen q hq)).mpr ⟨a, hra, hqa⟩)

/-- Construction maps every bank from its first byte. -/
theorem key_of_mem_fullCpuLayout {r : Region} (hr : r ∈ fullCpuLayout) (a : Addr) :
    r.key a = cellKey r.bank (a.toNat - r.base.toNat) := by
  have hoff : ∀ r ∈ fullCpuLayout, r.off = 0 := by decide
  rw [Region.key, Region.index, hoff r hr, Nat.zero_add]

/-- The range `lo .. hi` lies in one of the two that R41 and R50 leave without a region. -/
abbrev CpuGap (lo hi : Nat) : Prop := 0x0400 ≤ lo ∧ hi ≤ 0x0FFF ∨ 0x9800 ≤ lo ∧ hi ≤ 0x9FFF

theorem State.writeKey_uncovered {s : State} {sp : Space} {a : Addr} (h : s.effective sp a = none) :
    s.writeKey sp a = none := by simp [State.writeKey, h]

section
variable {s : State} (hs : s.regions .cpu = cpuLayout s.params.expPresent) {a : Addr}
include hs

/-- In a region of construction, that region is the effective one if its bank is fitted, and otherwise none is (R44, R50). -/
theorem State.effective_cpuLayout {r : Region} (hr : r ∈ fullCpuLayout) (ha : inRange r.base r.len a) :
    s.effective .cpu a = if r.bank.present s.params.expPresent then some r else none := by
  have honly : ∀ q ∈ s.regions .cpu, inRange q.base q.len a → q = r := fun q hq hqa =>
    eq_of_inRange_fullCpuLayout (mem_cpuLayout_iff.mp (hs ▸ hq)).1 hr hqa ha
  split
  · next hp =>
    obtain ⟨-, hapart⟩ := cpuLayout_ok s.params.expPresent
    refine (effectiveIn_eq_some_iff (hs ▸ hapart)).mpr ⟨?_, (r.covers_iff a).mpr ha, fun q hq hqa h0 => ?_⟩
    · exact hs ▸ mem_cpuLayout_iff.mpr ⟨hr, hp⟩
    · exact honly q hq ((q.covers_iff a).mp hqa) ▸ h0
  · next hp =>
    refine State.effective_eq_none_iff.mpr fun q hq hqa => hp ?_
    obtain rfl := honly q hq hqa
    exact (mem_cpuLayout_iff.mp (hs ▸ hq)).2

/-- No region of construction covers an address of a gap (R107, R125). -/
theorem State.effective_cpuGap {lo hi : Nat} (hgap : CpuGap lo hi) (ha : addrIn a lo hi = true) :
    s.effective .cpu a = none := by
  rw [addrIn_iff] at ha
  have hno : ∀ r ∈ fullCpuLayout, r.base.toNat + r.len ≤ 0x0400 ∨
      0x1000 ≤ r.base.toNat ∧ r.base.toNat + r.len ≤ 0x9800 ∨ 0xA000 ≤ r.base.toNat := by decide
  refine State.effective_eq_none_iff.mpr fun r hr ⟨hlo, hhi⟩ => ?_
  have := hno r (mem_cpuLayout_iff.mp (hs ▸ hr)).1
  omega

/-- A read in a region of construction: its bank's byte if the bank is fitted, and otherwise FILL (R45). -/
theorem State.memRead_cpuLayout {r : Region} (hr : r ∈ fullCpuLayout) (ha : inRange r.base r.len a) :
    s.memRead .cpu a =
      if r.bank.present s.params.expPresent then s.bankByte r.bank (a.toNat - r.base.toNat) else 0xFF := by
  have heff := State.effective_cpuLayout hs hr ha
  split at heff
  · next hp => rw [State.memRead_some heff, if_pos hp, key_of_mem_fullCpuLayout hr, State.bankByte]
  · next hp => rw [State.memRead_none heff, if_neg hp, fill]

/-- A write in an RO region of construction reaches no cell (R46). -/
theorem State.writeKey_cpuLayout_ro {r : Region} (hr : r ∈ fullCpuLayout) (hro : r.acc = .ro)
    (ha : inRange r.base r.len a) : s.writeKey .cpu a = none := by
  have heff := State.effective_cpuLayout hs hr ha
  split at heff
  · exact State.writeKey_ro heff hro
  · exact State.writeKey_uncovered heff

/-- A write in an RW region of construction reaches its bank's cell if the bank is fitted (R46). -/
theorem State.writeKey_cpuLayout_rw {r : Region} (hr : r ∈ fullCpuLayout) (hrw : r.acc = .rw)
    (ha : inRange r.base r.len a) : s.writeKey .cpu a =
      if r.bank.present s.params.expPresent then some (cellKey r.bank (a.toNat - r.base.toNat)) else none := by
  have heff := State.effective_cpuLayout hs hr ha
  split at heff
  · next hp => rw [State.writeKey_rw heff hrw, if_pos hp, key_of_mem_fullCpuLayout hr]
  · next hp => rw [State.writeKey_uncovered heff, if_neg hp]

end

/-! ### Each class at its addresses (41_bus_transactions.md R105 to R114, R123 to R132) -/

theorem mem_busClasses_of_memRead {a : Addr} {i : Instr} (hmem : i ∈ memReadClasses a) (d : Byte) : i ∈ busClasses a d :=
  mem_busClasses_iff.mpr (.inl (List.mem_append_left _ hmem))

theorem mem_busClasses_of_memWrite {a : Addr} {d : Byte} {i : Instr} (hmem : i ∈ memWriteClasses a d) :
    i ∈ busClasses a d := mem_busClasses_iff.mpr (.inr (List.mem_append_left _ hmem))

/-- A word that matches the row of a bus-cycle class decodes to it, and lies in its range (R75). -/
theorem decode_of_row {a : Addr} {d : Byte} {b : BitVec 1} {i : Instr} (hmem : i ∈ busClasses a d)
    (h : (b ++ a) &&& BitVec.ofNat 17 i.row.1 = BitVec.ofNat 17 i.row.2) :
    decode (.bus (b ++ a) d) = .ok i ∧ i.wellFormed = true := by
  obtain ⟨r, hr, rfl⟩ := List.mem_map.mp (busClasses_subset_busRows a d i hmem)
  rw [BusRow.row_make hr, BitVec.ofNat_toNat, BitVec.ofNat_toNat, BitVec.setWidth_eq, BitVec.setWidth_eq] at h
  obtain ⟨-, hrow⟩ := everyBusWordMatchesOneRow (b ++ a) d
  have hdec := hrow r hr (beq_iff_eq.mpr h)
  rwa [BitVec.extractLsb'_append_eq_right] at hdec

theorem inRange_of_addrIn {a base : Addr} {len hi : Nat} (h : addrIn a base.toNat hi = true)
    (hlen : hi < base.toNat + len) : inRange base len a := by
  obtain ⟨hlo, hhi⟩ := (addrIn_iff ..).mp h
  exact ⟨hlo, by omega⟩

/-- A read class puts on the bus what the map reads at its address. -/
theorem readsAs_of_memRead {s : State} (hv : s.valid = true) {a : Addr} {i : Instr} {v : Byte} (hmem : i ∈ memReadClasses a)
    (hdec : decode (.bus (1#1 ++ a) 0) = .ok i) (hread : s.memRead .cpu a = v) : ReadsAs s a i v :=
  ⟨hdec, _, memoryReadClasses s a hv i hmem, hread, State.chipsTicked_mem ..⟩

theorem writesNothing_of_writeKey {s : State} (hv : s.valid = true) {a : Addr} {d : Byte} {i : Instr}
    (hmem : i ∈ memWriteClasses a d) (hdec : decode (.bus (0#1 ++ a) d) = .ok i) (hkey : s.writeKey .cpu a = none) :
    WritesNothing s a d i := by
  refine ⟨hdec, _, memoryWriteClasses s a d hv i hmem, rfl, ?_⟩
  rw [State.chipsTicked_mem, State.memWrite_none d hkey]

/-- Every bank cell after a memory write cycle. -/
theorem State.bankByte_writeCycle (s : State) (a : Addr) (d : Byte) (p : Pins) (b : Bank) (k : Nat) :
    State.bankByte (State.chipsTicked { s.memWrite .cpu a d with pins := p } false false false) b k =
      if s.writeKey .cpu a = some (cellKey b k) then d else s.bankByte b k := by
  rw [State.bankByte, State.chipsTicked_mem]
  exact s.read_memWrite .cpu a d (cellKey b k)

/-- A write class writes the cell the map reaches at its address, and keys tell that cell from every other. -/
theorem writesCell_of_writeKey {s : State} (hv : s.valid = true) {a : Addr} {d : Byte} {i : Instr} {b : Bank} {k : Nat}
    (hmem : i ∈ memWriteClasses a d) (hdec : decode (.bus (0#1 ++ a) d) = .ok i)
    (hkey : s.writeKey .cpu a = some (cellKey b k)) (hk : k < 0x2000) : WritesCell s a d i b k := by
  refine ⟨hdec, _, memoryWriteClasses s a d hv i hmem, rfl, ?_, fun c j hj hne => ?_⟩
  · rw [State.bankByte_writeCycle, if_pos hkey]
  · rw [State.bankByte_writeCycle, if_neg fun he => hne ?_]
    obtain ⟨rfl, rfl⟩ := cellKey_inj hk hj (Option.some.inj (hkey.symm.trans he))
    exact ⟨rfl, rfl⟩

section
variable {s : State} (hv : s.valid = true) (hs : s.regions .cpu = cpuLayout s.params.expPresent) {a : Addr} {i : Instr}

section
variable (hmem : i ∈ memReadClasses a) (h : (1#1 ++ a) &&& BitVec.ofNat 17 i.row.1 = BitVec.ofNat 17 i.row.2)
include hv hs hmem h

/-- A read class at a word of its row, in a region of construction. -/
theorem readsAs_region {r : Region} (hr : r ∈ fullCpuLayout) (ha : i.wellFormed = true → inRange r.base r.len a) :
    ReadsAs s a i (if r.bank.present s.params.expPresent then s.bankByte r.bank (a.toNat - r.base.toNat) else 0xFF) := by
  obtain ⟨hdec, hwf⟩ := decode_of_row (mem_busClasses_of_memRead hmem 0) h
  exact readsAs_of_memRead hv hmem hdec (State.memRead_cpuLayout hs hr (ha hwf))

/-- A read class at a word of its row, in a range that construction leaves uncovered. -/
theorem readsAs_gap {lo hi : Nat} (hgap : CpuGap lo hi) (ha : i.wellFormed = true → addrIn a lo hi = true) :
    ReadsAs s a i 0xFF := by
  obtain ⟨hdec, hwf⟩ := decode_of_row (mem_busClasses_of_memRead hmem 0) h
  exact readsAs_of_memRead hv hmem hdec (State.memRead_none (State.effective_cpuGap hs hgap (ha hwf)))

end

section
variable {d : Byte} (hmem : i ∈ memWriteClasses a d)
  (h : (0#1 ++ a) &&& BitVec.ofNat 17 i.row.1 = BitVec.ofNat 17 i.row.2)
include hv hs hmem h

/-- A write class at a word of its row, in an RW region of construction. -/
theorem writes_rwRegion {r : Region} (hr : r ∈ fullCpuLayout) (hrw : r.acc = .rw)
    (ha : i.wellFormed = true → inRange r.base r.len a) :
    if r.bank.present s.params.expPresent then WritesCell s a d i r.bank (a.toNat - r.base.toNat)
    else WritesNothing s a d i := by
  obtain ⟨hdec, hwf⟩ := decode_of_row (mem_busClasses_of_memWrite hmem) h
  have hkey := State.writeKey_cpuLayout_rw hs hr hrw (ha hwf)
  split at hkey
  · next hp =>
    obtain ⟨hlo, hhi⟩ := ha hwf
    have hlen : ∀ r ∈ fullCpuLayout, r.len ≤ 0x2000 := by decide
    have := hlen r hr
    rw [if_pos hp]
    exact writesCell_of_writeKey hv hmem hdec hkey (by omega)
  · next hp =>
    rw [if_neg hp]
    exact writesNothing_of_writeKey hv hmem hdec hkey

/-- A write class at a word of its row, in an RO region of construction. -/
theorem writesNothing_roRegion {r : Region} (hr : r ∈ fullCpuLayout) (hro : r.acc = .ro)
    (ha : i.wellFormed = true → inRange r.base r.len a) : WritesNothing s a d i := by
  obtain ⟨hdec, hwf⟩ := decode_of_row (mem_busClasses_of_memWrite hmem) h
  exact writesNothing_of_writeKey hv hmem hdec (State.writeKey_cpuLayout_ro hs hr hro (ha hwf))

/-- A write class at a word of its row, in a range that construction leaves uncovered. -/
theorem writesNothing_gap {lo hi : Nat} (hgap : CpuGap lo hi) (ha : i.wellFormed = true → addrIn a lo hi = true) :
    WritesNothing s a d i := by
  obtain ⟨hdec, hwf⟩ := decode_of_row (mem_busClasses_of_memWrite hmem) h
  exact writesNothing_of_writeKey hv hmem hdec (State.writeKey_uncovered (State.effective_cpuGap hs hgap (ha hwf)))

end
end

/-- Settles O33: each class's range is a region of construction, two of them, or a gap. -/
theorem constructionLayoutReads : Obligations.ConstructionLayoutReads := by
  intro s a hv hs
  refine ⟨fun h => ?zp, fun h => ?rsv0A, fun h => ?rsv0B, fun h => ?ram, fun h => ?rsv1A, fun h => ?rsv1B, fun h => ?char,
    fun h => ?color, fun h => ?rsv2, fun h => ?rsv3, fun h => ?basic, fun h => ?kernal⟩
  case zp =>
    exact readsAs_region hv hs (by simp [memReadClasses]) h (r := systemRegion 0x0000 .zp .rw) (by decide)
      (inRange_of_addrIn · (by decide))
  case rsv0A => exact readsAs_gap hv hs (by simp [memReadClasses]) h (lo := 0x0400) (hi := 0x07FF) (by decide) id
  case rsv0B => exact readsAs_gap hv hs (by simp [memReadClasses]) h (lo := 0x0800) (hi := 0x0FFF) (by decide) id
  case ram =>
    exact readsAs_region hv hs (by simp [memReadClasses]) h (r := systemRegion 0x1000 .ram .rw) (by decide)
      (inRange_of_addrIn · (by decide))
  case rsv1A =>
    exact readsAs_region hv hs (by simp [memReadClasses]) h (r := expRegion 0x2000 .exp0) (by decide)
      (inRange_of_addrIn · (by decide))
  case rsv1B =>
    split
    · next hn =>
      exact readsAs_region hv hs (by simp [memReadClasses]) h (r := expRegion 0x4000 .exp1) (by decide)
        fun hwf => ⟨((addrIn_iff ..).mp hwf).1, hn⟩
    · next hn =>
      exact readsAs_region hv hs (by simp [memReadClasses]) h (r := expRegion 0x6000 .exp2) (by decide)
        fun hwf => ⟨Nat.le_of_not_lt hn, Nat.lt_succ_of_le ((addrIn_iff ..).mp hwf).2⟩
  case char =>
    exact readsAs_region hv hs (by simp [memReadClasses]) h (r := systemRegion 0x8000 .char .ro) (by decide)
      (inRange_of_addrIn · (by decide))
  case color =>
    exact readsAs_region hv hs (by simp [memReadClasses]) h (r := systemRegion 0x9400 .color .rw) (by decide)
      (inRange_of_addrIn · (by decide))
  case rsv2 => exact readsAs_gap hv hs (by simp [memReadClasses]) h (lo := 0x9800) (hi := 0x9FFF) (by decide) id
  case rsv3 =>
    exact readsAs_region hv hs (by simp [memReadClasses]) h (r := expRegion 0xA000 .exp3) (by decide)
      (inRange_of_addrIn · (by decide))
  case basic =>
    exact readsAs_region hv hs (by simp [memReadClasses]) h (r := systemRegion 0xC000 .basic .ro) (by decide)
      (inRange_of_addrIn · (by decide))
  case kernal =>
    exact readsAs_region hv hs (by simp [memReadClasses]) h (r := systemRegion 0xE000 .kernal .ro) (by decide)
      (inRange_of_addrIn · (by decide))

/-- Settles O34: each class's range is a region of construction, two of them, or a gap. -/
theorem constructionLayoutWrites : Obligations.ConstructionLayoutWrites := by
  intro s a d hv hs
  refine ⟨fun h => ?zp, fun h => ?rsv0A, fun h => ?rsv0B, fun h => ?ram, fun h => ?rsv1A, fun h => ?rsv1B, fun h => ?char,
    fun h => ?color, fun h => ?rsv2, fun h => ?rsv3, fun h => ?basic, fun h => ?kernal⟩
  case zp =>
    exact writes_rwRegion hv hs (by simp [memWriteClasses]) h (r := systemRegion 0x0000 .zp .rw) (by decide) rfl
      (inRange_of_addrIn · (by decide))
  case rsv0A => exact writesNothing_gap hv hs (by simp [memWriteClasses]) h (lo := 0x0400) (hi := 0x07FF) (by decide) id
  case rsv0B => exact writesNothing_gap hv hs (by simp [memWriteClasses]) h (lo := 0x0800) (hi := 0x0FFF) (by decide) id
  case ram =>
    exact writes_rwRegion hv hs (by simp [memWriteClasses]) h (r := systemRegion 0x1000 .ram .rw) (by decide) rfl
      (inRange_of_addrIn · (by decide))
  case rsv1A =>
    exact writes_rwRegion hv hs (by simp [memWriteClasses]) h (r := expRegion 0x2000 .exp0) (by decide) rfl
      (inRange_of_addrIn · (by decide))
  case rsv1B =>
    split
    · next hn =>
      exact writes_rwRegion hv hs (by simp [memWriteClasses]) h (r := expRegion 0x4000 .exp1) (by decide) rfl
        fun hwf => ⟨((addrIn_iff ..).mp hwf).1, hn⟩
    · next hn =>
      exact writes_rwRegion hv hs (by simp [memWriteClasses]) h (r := expRegion 0x6000 .exp2) (by decide) rfl
        fun hwf => ⟨Nat.le_of_not_lt hn, Nat.lt_succ_of_le ((addrIn_iff ..).mp hwf).2⟩
  case char =>
    exact writesNothing_roRegion hv hs (by simp [memWriteClasses]) h (r := systemRegion 0x8000 .char .ro) (by decide) rfl
      (inRange_of_addrIn · (by decide))
  case color =>
    exact writes_rwRegion hv hs (by simp [memWriteClasses]) h (r := systemRegion 0x9400 .color .rw) (by decide) rfl
      (inRange_of_addrIn · (by decide))
  case rsv2 => exact writesNothing_gap hv hs (by simp [memWriteClasses]) h (lo := 0x9800) (hi := 0x9FFF) (by decide) id
  case rsv3 =>
    exact writes_rwRegion hv hs (by simp [memWriteClasses]) h (r := expRegion 0xA000 .exp3) (by decide) rfl
      (inRange_of_addrIn · (by decide))
  case basic =>
    exact writesNothing_roRegion hv hs (by simp [memWriteClasses]) h (r := systemRegion 0xC000 .basic .ro) (by decide) rfl
      (inRange_of_addrIn · (by decide))
  case kernal =>
    exact writesNothing_roRegion hv hs (by simp [memWriteClasses]) h (r := systemRegion 0xE000 .kernal .ro) (by decide) rfl
      (inRange_of_addrIn · (by decide))

end Sys2Proof.Machine
end

section
/-! The keyboard operations (42_keyboard.md R142 to R152): what each makes of a valid block, and of every cell of the matrix. -/

namespace Sys2Proof.Machine

/-! ### Each operation on a valid block -/

theorem exec_keyDown {s : State} (hv : s.valid = true) (code : Byte) :
    exec (.keyDown code) s = .next { s with kbd := s.kbd.keyDown code, configPhase := false, result := .none } :=
  operate_valid (fun s => (s.closeConfig.setKbd (s.kbd.keyDown code)).answer .none) hv

theorem exec_keyUp {s : State} (hv : s.valid = true) (code : Byte) :
    exec (.keyUp code) s =
      .next { s with kbd := s.kbd.keyUp s.params.kbdHoldUs code, configPhase := false, result := .none } :=
  operate_valid (fun s => (s.closeConfig.setKbd (s.kbd.keyUp s.params.kbdHoldUs code)).answer .none) hv

theorem exec_kbdAdvance {s : State} (hv : s.valid = true) (u : Nat) :
    exec (.kbdAdvance u) s =
      .next { s with kbd := s.kbd.advance s.params.kbdHoldUs u, configPhase := false, result := .none } :=
  operate_valid (fun s => (s.closeConfig.kbdAdvance u).answer .none) hv

theorem exec_scan {s : State} (hv : s.valid = true) (cols : Byte) :
    exec (.scan cols) s = .next { s with configPhase := false, result := .byte (s.kbd.scan cols) } :=
  operate_valid (fun s => s.closeConfig.answer (.byte (s.kbd.scan cols))) hv

theorem exec_modRegister {s : State} (hv : s.valid = true) (m : BitVec 1) (col row : BitVec 3) :
    exec (.modRegister m col row) s = .next (s.configure (s.kbd.bindModifier m { col := col, row := row })) :=
  operate_valid _ hv

theorem exec_keyRegister {s : State} (hv : s.valid = true) (code : Byte) (col row : BitVec 3) (mask : BitVec 2) :
    exec (.keyRegister code col row mask) s =
      .next (s.configure (s.kbd.registerKey code { cell := { col := col, row := row }, mask := mask })) :=
  operate_valid _ hv

/-! ### Registrations (R142 to R144) -/

theorem State.configure_open {s : State} (hc : s.configPhase = true) (k : Keyboard) :
    s.configure k = { s with kbd := k, result := .none } := if_pos hc

theorem State.configure_closed {s : State} (hc : s.configPhase = false) (k : Keyboard) :
    s.configure k = { s with refused := true, result := .refused .configClosed } :=
  if_neg (Bool.eq_false_iff.mp hc)

theorem Keyboard.getElem_bindModifier (m : BitVec 1) (x : Coord) (k : Keyboard) (j : Fin 2) :
    (k.bindModifier m x).modCell[j] = if j.val = m.toNat then some x else k.modCell[j] := by
  simp [Keyboard.bindModifier, Vector.getElem_set, eq_comm]

theorem Keyboard.assocFind_registerKey (code : Byte) (e : KeyEntry) (k : Keyboard) (n : Nat) :
    assocFind (k.registerKey code e).keymap n = if n = code.toNat then some e else assocFind k.keymap n := by
  split
  · next h => exact h ▸ assocFind_insert_self ..
  · next h => exact assocFind_insert_other _ _ h

/-- Settles O41: an admitted registration replaces the keyboard by one that differs in one binding. -/
theorem registrationBinds : Obligations.RegistrationBinds := by
  refine fun s hv hc => ⟨fun m col row => ?mod, fun code col row mask => ?key⟩
  case mod =>
    rw [exec_modRegister hv, State.configure_open hc]
    exact ⟨_, rfl, rfl, Keyboard.getElem_bindModifier m _ s.kbd⟩
  case key =>
    rw [exec_keyRegister hv, State.configure_open hc]
    exact ⟨_, rfl, rfl, Keyboard.assocFind_registerKey code _ s.kbd⟩

/-- Settles O42: both registrations go through `State.configure`, which a closed configuration phase refuses. -/
theorem registrationRefusedLater : Obligations.RegistrationRefusedLater := by
  refine fun s hv hc => ⟨fun m col row => ?_, fun code col row mask => ?_⟩
  · rw [exec_modRegister hv, State.configure_closed hc]
  · rw [exec_keyRegister hv, State.configure_closed hc]

/-! ### Key actions (R145, R146) -/

/-- From `k` to `k'` the cells of `S` have become what `g` makes of them, and the others have stayed. -/
def Keyboard.Acted (g : KeyCell → KeyCell) (S : Coord → Prop) (k k' : Keyboard) : Prop :=
  ∀ x, (S x → k'.cell x = g (k.cell x)) ∧ (¬ S x → k'.cell x = k.cell x)

theorem Keyboard.acted_setCell (g : KeyCell → KeyCell) (k : Keyboard) (x : Coord) :
    Acted g (· = x) k (k.setCell x (g (k.cell x))) := by
  intro y
  rw [Keyboard.cell_setCell]
  exact ⟨fun h => by rw [if_pos h, h], fun h => if_neg h⟩

theorem Keyboard.acted_press (k : Keyboard) (x : Coord) :
    Acted (fun _ => { pressed := true, age := 0, pend := false }) (· = x) k (k.press x) := acted_setCell _ k x

theorem Keyboard.acted_release (hold : Nat) (k : Keyboard) (x : Coord) :
    Acted (KeyCell.release hold) (· = x) k (k.release hold x) := acted_setCell _ k x

theorem Keyboard.acted_none (g : KeyCell → KeyCell) (k : Keyboard) : Acted g (fun _ => False) k k :=
  fun _ => ⟨False.elim, fun _ => rfl⟩

theorem Keyboard.Acted.congr {g : KeyCell → KeyCell} {S T : Coord → Prop} {k k' : Keyboard} (h : Acted g S k k')
    (hST : ∀ x, S x ↔ T x) : Acted g T k k' :=
  funext (fun x => propext (hST x)) ▸ h

/-- A cell that two actions reach, as when a key and its modifier share one, is as if reached once. -/
theorem Keyboard.Acted.trans {g : KeyCell → KeyCell} (hg : ∀ c, g (g c) = g c) {S T : Coord → Prop} {k k' k'' : Keyboard}
    (h : Acted g S k k') (h' : Acted g T k' k'') : Acted g (fun x => S x ∨ T x) k k'' := by
  intro x
  obtain ⟨hS, hS'⟩ := h x
  obtain ⟨hT, hT'⟩ := h' x
  refine ⟨fun hx => ?_, fun hx => ?_⟩
  · by_cases hxT : T x
    · rw [hT hxT]
      by_cases hxS : S x
      · rw [hS hxS, hg]
      · rw [hS' hxS]
    · rw [hT' hxT, hS (hx.resolve_right hxT)]
  · rw [hT' (hx ∘ .inr), hS' (hx ∘ .inl)]

section
variable {f : Keyboard → Coord → Keyboard} {g : KeyCell → KeyCell}

theorem Keyboard.acted_onModifier (hf : ∀ k x, Acted g (· = x) k (f k x)) (mask : BitVec 2) (j : Fin 2) (k : Keyboard) :
    Acted g (fun x => mask.getLsbD j = true ∧ k.modCell[j] = some x) k (k.onModifier f mask j) := by
  unfold Keyboard.onModifier
  split
  · next hmask =>
    split
    · next x hx => exact (hf k x).congr fun y => by simp [hmask, hx, eq_comm]
    · next hx => exact (acted_none g k).congr fun y => by simp [hx]
  · next hmask => exact (acted_none g k).congr fun y => by simp [hmask]

/-- A key's action reaches exactly the key's cells, the bindings being those before it. -/
theorem Keyboard.acted_onKey (hf : ∀ k x, Acted g (· = x) k (f k x)) (hg : ∀ c, g (g c) = g c)
    (hmod : ∀ k x, (f k x).modCell = k.modCell) (e : KeyEntry) (k : Keyboard) :
    Acted g (KeyCells k e) k (k.onKey f e) := by
  have h0 := acted_onModifier hf e.mask 0 (f k e.cell)
  have h1 := acted_onModifier hf e.mask 1 ((f k e.cell).onModifier f e.mask 0)
  rw [onModifier_modCell f hmod] at h1
  rw [hmod] at h0 h1
  refine (((hf k e.cell).trans hg h0).trans hg h1).congr fun x => ?_
  simp only [KeyCells, Fin.exists_fin_two, or_assoc]

end

theorem KeyCell.release_release (hold : Nat) (c : KeyCell) : (c.release hold).release hold = c.release hold := by
  by_cases h : hold ≤ c.age <;> simp [KeyCell.release, h]

theorem Keyboard.keyDown_unregistered {k : Keyboard} {code : Byte} (h : assocFind k.keymap code.toNat = none) :
    k.keyDown code = k := by
  rw [Keyboard.keyDown, h]

theorem Keyboard.keyUp_unregistered {k : Keyboard} {code : Byte} (hold : Nat) (h : assocFind k.keymap code.toNat = none) :
    k.keyUp hold code = k := by
  rw [Keyboard.keyUp, h]

theorem Keyboard.acted_keyDown {k : Keyboard} {code : Byte} {e : KeyEntry} (h : assocFind k.keymap code.toNat = some e) :
    Acted (fun _ => { pressed := true, age := 0, pend := false }) (KeyCells k e) k (k.keyDown code) := by
  rw [Keyboard.keyDown, h]
  exact acted_onKey acted_press (fun _ => rfl) press_modCell e k

theorem Keyboard.acted_keyUp {k : Keyboard} {code : Byte} {e : KeyEntry} (hold : Nat)
    (h : assocFind k.keymap code.toNat = some e) :
    Acted (KeyCell.release hold) (KeyCells k e) k (k.keyUp hold code) := by
  rw [Keyboard.keyUp, h]
  exact acted_onKey (acted_release hold) (KeyCell.release_release hold) (release_modCell hold) e k

/-- Settles O39: pressing a cell twice is pressing it once, so KEY_DOWN acts on the key's cells as a set. -/
theorem keyDownPresses : Obligations.KeyDownPresses := by
  refine fun s code hv => ⟨fun hnone => ?_, fun e he => ?_⟩
  · rw [exec_keyDown hv, Keyboard.keyDown_unregistered hnone]
  · exact ⟨_, exec_keyDown hv code, rfl, Keyboard.keyDown_modCell code s.kbd, Keyboard.keyDown_keymap code s.kbd,
      Keyboard.acted_keyDown he⟩

/-- Settles O40: releasing a cell twice is releasing it once, so KEY_UP acts on the key's cells as a set. -/
theorem keyUpReleases : Obligations.KeyUpReleases := by
  refine fun s code hv => ⟨fun hnone => ?_, fun e he => ?_⟩
  · rw [exec_keyUp hv, Keyboard.keyUp_unregistered _ hnone]
  · exact ⟨_, exec_keyUp hv code, rfl, Keyboard.keyUp_modCell _ code s.kbd, Keyboard.keyUp_keymap _ code s.kbd,
      Keyboard.acted_keyUp _ he⟩

/-! ### Keyboard time (R148, R149) -/

/-- Settles O44: keyboard time reaches every cell, and `KeyCell.advance` has the three cases of R148. -/
theorem kbdAdvanceAges : Obligations.KbdAdvanceAges := by
  refine fun s u hv => ⟨_, exec_kbdAdvance hv u, rfl, rfl, rfl, fun x => ?_⟩
  rw [Keyboard.cell_advance]
  cases hp : (s.kbd.cell x).pressed <;> simp [KeyCell.advance, hp]

/-- A young cell stays pressed and keeps its age under any KEY_UP (R146). -/
theorem Keyboard.keyUp_keeps_young {k : Keyboard} {x : Coord} {hold : Nat} (h : (k.cell x).age < hold) (code : Byte) :
    ((k.keyUp hold code).cell x).pressed = (k.cell x).pressed ∧ ((k.keyUp hold code).cell x).age = (k.cell x).age := by
  cases he : assocFind k.keymap code.toNat with
  | none => rw [keyUp_unregistered hold he]; exact ⟨rfl, rfl⟩
  | some e =>
    obtain ⟨hreached, hother⟩ := acted_keyUp hold he x
    by_cases hx : KeyCells k e x
    · rw [hreached hx, KeyCell.release, if_neg (Nat.not_le_of_lt h)]
      exact ⟨rfl, rfl⟩
    · rw [hother hx]
      exact ⟨rfl, rfl⟩

/-- Keyboard time that leaves a pressed cell young only ages it, a release pending or not (R148). -/
theorem KeyCell.advance_young {c : KeyCell} {hold u : Nat} (hp : c.pressed = true) (h : c.age + u < hold) :
    c.advance hold u = { c with age := c.age + u } := by
  simp [KeyCell.advance, hp, Nat.not_le_of_lt h]

/-- Settles O46: KEY_UP leaves the cell pressed at its age, and the time up to the hold time leaves it pressed. -/
theorem heldKeyStaysVisible : Obligations.HeldKeyStaysVisible := by
  intro s x code u hv hp hyoung
  obtain ⟨hp', hage⟩ := Keyboard.keyUp_keeps_young (Nat.lt_of_le_of_lt (Nat.le_add_right ..) hyoung) code
  refine ⟨_, _, exec_keyUp hv code, exec_kbdAdvance ?valid u, ?cell⟩
  case valid => exact hv
  case cell =>
    rw [Keyboard.cell_advance, KeyCell.advance_young (hp'.trans hp) (hage ▸ hyoung)]
    exact ⟨hp'.trans hp, congrArg (· + u) hage⟩

/-! ### The scan (R150, R152) -/

/-- Settles O45: the answer is the complement of the row set. -/
theorem scanReportsRows : Obligations.ScanReportsRows := by
  refine fun s cols hv => ⟨_, exec_scan hv cols, fun row => ?_⟩
  have hbit : (s.kbd.scan cols).getLsbD row.toNat = !s.kbd.rowActive cols row := by
    rw [Keyboard.scan, BitVec.getLsbD_not, Keyboard.getLsbD_scanRows _ _ _ row.isLt, BitVec.ofNat_toNat, BitVec.setWidth_eq]
    rw [decide_eq_true row.isLt, Bool.true_and]
  rw [hbit, Bool.not_eq_false', Keyboard.rowActive_iff]

end Sys2Proof.Machine
end

section
/-! The end of the configuration phase (42_keyboard.md R144; log 23): it is final, and ticks and key operations bring it. -/

namespace Sys2Proof.Machine

/-! ### What its end fixes -/

/-- If the configuration phase is over in `u`, it is in `v`, with the same bindings. -/
def State.Fixes (u v : State) : Prop :=
  u.configPhase = false → v.configPhase = false ∧ v.kbd.modCell = u.kbd.modCell ∧ v.kbd.keymap = u.kbd.keymap

theorem State.Fixes.of_kbd {u v : State} (hc : v.configPhase = u.configPhase) (hk : v.kbd = u.kbd) : u.Fixes v :=
  fun h => ⟨hc.trans h, congrArg Keyboard.modCell hk, congrArg Keyboard.keymap hk⟩

theorem State.Fixes.setKbd {u : State} {k : Keyboard} (hm : k.modCell = u.kbd.modCell) (hk : k.keymap = u.kbd.keymap) :
    u.Fixes (u.setKbd k) := fun h => ⟨h, hm, hk⟩

theorem State.Fixes.of_open {u : State} (h : u.configPhase = true) (v : State) : u.Fixes v :=
  fun h' => absurd (h.symm.trans h') (by decide)

theorem State.Fixes.trans {a b c : State} (hab : a.Fixes b) (hbc : b.Fixes c) : a.Fixes c := by
  intro h
  obtain ⟨hb, hbm, hbk⟩ := hab h
  obtain ⟨hc, hcm, hck⟩ := hbc hb
  exact ⟨hc, hcm.trans hbm, hck.trans hbk⟩

/-- No named update reopens the configuration phase, and those that bind something are made inside it only. -/
theorem updates_fixes (i : Instr) (s : State) : Updates State.Fixes i s where
  same _ := .of_kbd rfl rfl
  chain := .trans
  refuse _ _ := .of_kbd rfl rfl
  answer _ _ := .of_kbd rfl rfl
  close _ _ := ⟨rfl, rfl, rfl⟩
  drawn _ := .of_kbd rfl rfl
  emit _ _ := .of_kbd rfl rfl
  pins _ _ := .of_kbd rfl rfl
  chips u c1 c2 cv := .of_kbd (u.chipSteps_configPhase _ c1 c2 cv) (u.chipSteps_kbd _ c1 c2 cv)
  cpu _ := .of_kbd rfl rfl
  write u sp a v := .of_kbd (u.memWrite_configPhase sp a v) (u.memWrite_kbd sp a v)
  keyDown code _ u := .setKbd (u.kbd.keyDown_modCell code) (u.kbd.keyDown_keymap code)
  keyUp code _ u := .setKbd (u.kbd.keyUp_modCell _ code) (u.kbd.keyUp_keymap _ code)
  advance _ _ _ := .setKbd rfl rfl
  bind _ _ _ _ hc := .of_open hc _
  register _ _ _ _ _ hc := .of_open hc _
  reset _ := .of_kbd rfl rfl
  discard _ := .of_kbd rfl rfl
  region sp _ _ _ _ _ _ _ _ _ := by cases sp <;> exact .of_kbd rfl rfl
  cart _ _ _ _ _ := .of_kbd rfl rfl

/-! ### What ends it -/

/-- Every bus cycle is a tick operation (log 23). -/
theorem exec_busClasses {a : Addr} {d : Byte} {i : Instr} (hi : i ∈ busClasses a d) : ∃ f, ∀ s, exec i s = tickOp f s := by
  simp only [busClasses, List.map_append, List.mem_append, List.mem_map] at hi
  rcases hi with (hi | hi) | ⟨c, hc, rfl⟩ | ⟨c, hc, rfl⟩
  · exact ⟨_, exec_memReadClasses hi⟩
  · exact ⟨_, exec_memWriteClasses hi⟩
  · exact ⟨_, exec_ioReadClasses hc⟩
  · exact ⟨_, exec_ioWriteClasses hc⟩

/-- EXEC ends the configuration phase before its first tick, and no tick reopens it. -/
theorem State.execRun_configPhase (ch : Chips) (mode : ExecMode) (e : Nat) (s : State) :
    (s.execRun ch mode e).configPhase = false :=
  State.execLoop_keeps (P := fun u => u.configPhase = false) ch (fun u h => (u.tick_configPhase ch).trans h)
    (fun u h => (u.watchedTick_configPhase ch).trans h) mode (ticksFor e) s.closeConfig rfl

/-- EXEC is admitted in free-run mode, and in instrumented mode with a debug hook (R166). -/
theorem exec_exec_admitted {s : State} (hv : s.valid = true) {mode : ExecMode} (e : Nat)
    (hm : mode = .instrumented → s.params.debugHook = true) :
    exec (.exec mode e) s = .next (s.execRun Config.chips mode e) := by
  have hok : ¬ (mode = .instrumented ∧ s.params.debugHook = false) := fun ⟨hi, hn⟩ => by simp [hm hi] at hn
  exact (operate_valid _ hv).trans (congrArg _ (if_neg hok))

/-- Settles O43: every named update keeps a closed phase closed and its bindings fixed; each operation of R144 closes it. -/
theorem configurationStaysFixed : Obligations.ConfigurationStaysFixed := by
  refine ⟨fun i s t he => (updates_fixes i s).exec he, fun s a d code cols e u hv => ⟨fun i hi => ?_, fun hd => ?_⟩⟩
  · simp only [List.mem_append, List.mem_cons, List.not_mem_nil, or_false] at hi
    rcases hi with (rfl | rfl | rfl | rfl | rfl | rfl) | hbus
    · exact ⟨_, tickOp_valid _ hv, rfl⟩
    · exact ⟨_, exec_exec_admitted hv e nofun, s.execRun_configPhase ..⟩
    · exact ⟨_, exec_keyDown hv code, rfl⟩
    · exact ⟨_, exec_keyUp hv code, rfl⟩
    · exact ⟨_, exec_kbdAdvance hv u, rfl⟩
    · exact ⟨_, exec_scan hv cols, rfl⟩
    · obtain ⟨f, hf⟩ := exec_busClasses hbus
      exact ⟨_, (hf s).trans (tickOp_valid f hv), rfl⟩
  · exact ⟨_, exec_exec_admitted hv e fun _ => hd, s.execRun_configPhase ..⟩

end Sys2Proof.Machine
end

section
/-! CART_INSERT (43_host_operations.md R171; 20_memory.md R38, R51; logs 13, 14): what it refuses and what it registers. -/

namespace Sys2Proof.Machine

theorem exec_cartInsert {s : State} (hv : s.valid = true) (p : List Byte) :
    exec (.cartInsert p) s = .next (s.cartInsert p) := operate_valid _ hv

theorem State.cartInsert_badSize {s : State} {p : List Byte} (h : p.length = 0 ∨ cartMax < p.length) :
    s.cartInsert p = s.refuse .cartSize := if_pos h

theorem State.cartInsert_clash {s : State} {p : List Byte} (h1 : 1 ≤ p.length) (h2 : p.length ≤ cartMax)
    (hc : s.cartClash p.length = true) : s.cartInsert p = s.refuse .cartOverlap := by
  rw [State.cartInsert, if_neg (by omega), if_pos hc]

/-! ### Which cartridges lie over another layer-0 region (R38(d)) -/

theorem Region.overlaps_of_inRange {r q : Region} {a : Addr} (hr : inRange r.base r.len a) (hq : inRange q.base q.len a) :
    r.overlaps q = true := by
  simp only [Region.overlaps, Bool.and_eq_true, decide_eq_true_eq]
  unfold inRange at hr hq
  omega

theorem State.mem_withoutCart {s : State} {q : Region} : q ∈ s.withoutCart ↔ q ∈ s.regionsCpu ∧ q.isCart = false := by
  simp [State.withoutCart]

theorem State.cartClash_of_expPresent {s : State} (h : s.params.expPresent[3] = true) (n : Nat) : s.cartClash n = true := by
  simp [State.cartClash, h]

/-- A region other than the inserted cartridge's, on layer 0, with an address of the new cartridge (log 13). -/
theorem State.cartClash_of_inRange {s : State} {n : Nat} {q : Region} {a : Addr} (hq : q ∈ s.regionsCpu)
    (hcart : q.isCart = false) (hl : q.layer = .l0) (hqa : inRange q.base q.len a) (ha : inRange cartBase n a) :
    s.cartClash n = true := by
  have hov : q.overlaps (cartRegion n) = true := Region.overlaps_of_inRange hqa ha
  have hlayer : q.layer = (cartRegion n).layer := hl
  have hclash : clashes s.withoutCart (cartRegion n) = true :=
    List.any_eq_true.mpr ⟨q, State.mem_withoutCart.mpr ⟨hq, hcart⟩, by simp [hlayer, hov]⟩
  simp [State.cartClash, hclash]

theorem State.cartClash_eq_false {s : State} {n : Nat} (hn : 1 ≤ n) (he : s.params.expPresent[3] = false)
    (hlen : ∀ q ∈ s.regionsCpu, 1 ≤ q.len)
    (hapart : ∀ q ∈ s.regionsCpu, q.isCart = false → q.layer = .l0 →
      ∀ a, ¬ (inRange q.base q.len a ∧ inRange cartBase n a)) : s.cartClash n = false := by
  have hclash : clashes s.withoutCart (cartRegion n) = false := by
    have hlen' : ∀ q ∈ s.withoutCart, 1 ≤ q.len := fun q hq => hlen q (List.mem_of_mem_filter hq)
    refine (clashes_eq_false_iff hlen' hn).mpr fun q hq hl => ?_
    obtain ⟨hmem, hcart⟩ := State.mem_withoutCart.mp hq
    exact hapart q hmem hcart hl
  simp [State.cartClash, he, hclash]

/-- Settles O19: the size is checked first, then the clash, which a fitted EXP3 or another layer-0 region makes. -/
theorem cartInsertRefusals : Obligations.CartInsertRefusals := by
  intro s p hv
  rw [exec_cartInsert hv]
  refine ⟨fun hsize => ?_, fun h1 h2 hexp => ?_, fun h1 h2 ⟨q, hq, hcart, hl, a, hqa, ha⟩ => ?_⟩
  · exact congrArg _ (State.cartInsert_badSize hsize)
  · exact congrArg _ (State.cartInsert_clash h1 h2 (State.cartClash_of_expPresent hexp _))
  · exact congrArg _ (State.cartInsert_clash h1 h2 (State.cartClash_of_inRange hq hcart hl hqa ha))

/-! ### What an admitted cartridge shows (R51) -/

theorem State.bankByte_loadCart_cart (s : State) {p : List Byte} {k : Nat} (hk : k < p.length) :
    (s.loadCart p).bankByte .cart k = p.getD k 0 := Memory.read_writeRun_bank _ _ _ hk

theorem State.bankByte_loadCart_other (s : State) {p : List Byte} (hp : p.length ≤ cartMax) {b : Bank} (hb : b ≠ .cart)
    {k : Nat} (hk : k < 0x2000) : (s.loadCart p).bankByte b k = s.bankByte b k := by
  have hid : cellKey b k / 0x2000 ≠ Bank.cart.id := by
    intro h
    have hkey : cellKey b k = cellKey .cart k := by unfold cellKey at h ⊢; omega
    exact hb (cellKey_inj hk hk hkey).1
  unfold State.bankByte
  rw [State.loadCart_mem, Memory.read_writeRun_otherBank _ _ hb hp hk, Memory.read_dropBank, if_neg hid]

/-- A region added to a table with which it does not clash is the one of its layer at its addresses. -/
theorem coveringAt_append_of_not_clashes {rs : List Region} {r : Region} {a : Addr} (hc : clashes rs r = false)
    (ha : r.covers a = true) : coveringAt (rs ++ [r]) r.layer a = some r := by
  have hno : coveringAt rs r.layer a = none := by
    refine coveringAt_eq_none_iff.mpr fun q hq hl => Bool.eq_false_iff.mpr fun hqa => ?_
    have hov : q.overlaps r = true := Region.overlaps_of_inRange ((q.covers_iff a).mp hqa) ((r.covers_iff a).mp ha)
    have hn := List.any_eq_false.mp hc q hq
    simp [hl, hov] at hn
  unfold coveringAt at hno ⊢
  simp [List.find?_append, hno, ha]

/-- The inserted cartridge's region is effective at all its addresses: no other layer-0 region is there. -/
theorem State.effective_loadCart {s : State} {p : List Byte} (hc : s.cartClash p.length = false) {a : Addr}
    (ha : inRange cartBase p.length a) : (s.loadCart p).effective .cpu a = some (cartRegion p.length) := by
  obtain ⟨-, hclash⟩ := Bool.or_eq_false_iff.mp hc
  have hcov : coveringAt (s.withoutCart ++ [cartRegion p.length]) .l0 a = some (cartRegion p.length) :=
    coveringAt_append_of_not_clashes hclash ((Region.covers_iff _ a).mpr ha)
  show effectiveIn (s.withoutCart ++ [cartRegion p.length]) a = _
  rw [effectiveIn, hcov]

/-- Settles O20: the cartridge is admitted, and its RO region is effective at all its addresses. -/
theorem cartInsertLoadsAndRegisters : Obligations.CartInsertLoadsAndRegisters := by
  intro s p hv h1 h2 he hapart hlen
  have hc : s.cartClash p.length = false := State.cartClash_eq_false h1 he hlen hapart
  refine ⟨(s.loadCart p).answer .none, ?_, rfl, fun k hk => s.bankByte_loadCart_cart hk,
    fun b k hb hk => s.bankByte_loadCart_other h2 hb hk, fun a ha => ?_⟩
  · rw [exec_cartInsert hv, State.cartInsert_admitted h1 h2 hc]
  · have hvt : ((s.loadCart p).answer .none).valid = true := hv
    have heff : ((s.loadCart p).answer .none).effective .cpu a = some (cartRegion p.length) := State.effective_loadCart hc ha
    have hidx : a.toNat - 0xA000 < p.length := by
      obtain ⟨hlo, hhi⟩ := ha
      simp only [BitVec.reduceToNat] at hlo hhi
      omega
    have hbyte : ((s.loadCart p).answer .none).bankByte .cart (0 + (a.toNat - 0xA000)) = p.getD (a.toNat - 0xA000) 0 :=
      (Nat.zero_add _).symm ▸ s.bankByte_loadCart_cart hidx
    constructor
    · rw [exec_memRead_some hvt heff]
      exact congrArg (fun b => Host.Outcome.next (((s.loadCart p).answer .none).answer (.byte b))) hbyte
    · exact fun v => exec_memWrite_none hvt v (State.writeKey_ro heff rfl)

end Sys2Proof.Machine
end

section
/-! QUICKLOAD (43_host_operations.md R169, R170). -/

namespace Sys2Proof.Machine

theorem exec_quickload {s : State} (hv : s.valid = true) (p : List Byte) :
    exec (.quickload p) s = .next (s.quickload p) := operate_valid _ hv

/-- The header's second byte is the load address's high one. -/
theorem loadAddress_eq_or (lo hi : Byte) : loadAddress lo hi = lo.setWidth 16 ||| hi.setWidth 16 <<< 8 := by
  rw [loadAddress, BitVec.append_def, BitVec.shiftLeftZeroExtend_eq, BitVec.setWidth'_eq, BitVec.or_comm]

/-- A load is one write per byte, at the address that many above the first, wrapping at the top (R169, R189). -/
theorem State.loadBytes_eq_foldl (a : Addr) (bs : List Byte) (s : State) :
    s.loadBytes a bs =
      (List.range bs.length).foldl (fun t k => t.memWrite .cpu (a + BitVec.ofNat 16 k) (bs.getD k 0)) s := by
  induction bs generalizing a s with
  | nil => rfl
  | cons b bs ih =>
    have hnext : ∀ k : Nat, a + 1 + BitVec.ofNat 16 k = a + BitVec.ofNat 16 (k + 1) := fun k => by
      rw [BitVec.ofNat_add, BitVec.add_assoc, BitVec.add_comm 1]
      rfl
    rw [State.loadBytes, ih, List.length_cons, List.range_succ_eq_map, List.foldl_cons, List.foldl_map]
    simp only [hnext]
    simp

/-- Settles O21: the three lengths of the model's match. -/
theorem quickloadWritesBytes : Obligations.QuickloadWritesBytes := by
  intro s p hv
  match p with
  | [] | [_] => exact ⟨fun _ => exec_quickload hv _, fun h => absurd h (by simp)⟩
  | lo :: hi :: bytes =>
    refine ⟨fun h => absurd h (by simp), fun _ => ?_⟩
    intro base loaded
    have hloaded : loaded = s.loadBytes (loadAddress lo hi) bytes := by
      rw [loadAddress_eq_or, State.loadBytes_eq_foldl]
      simp [loaded, base, Nat.add_comm 2]
    rw [hloaded]
    exact ⟨exec_quickload hv _, State.loadBytes_eq _ _ _⟩

end Sys2Proof.Machine
end

section
/-! EXEC (43_host_operations.md R164 to R168): its two loops as iterated turns, and the loop that runs no turn. -/

namespace Sys2Proof.Machine

theorem State.ticks_eq_iterate (ch : Chips) (n : Nat) (s : State) : s.ticks ch n = (State.tick ch)^[n] s := by
  induction n generalizing s with
  | zero => rfl
  | succ n ih => exact ih (s.tick ch)

theorem State.execLoop_params (ch : Chips) (mode : ExecMode) (n : Nat) (s : State) :
    (s.execLoop ch mode n).1.params = s.params :=
  State.execLoop_keeps (P := fun u => u.params = s.params) ch (fun u h => (u.tick_params ch).trans h)
    (fun u h => (u.watchedTick_params ch).trans h) mode n s rfl

/-- After its loop EXEC advances the keyboard by the full elapsed time, at the block's hold time, and answers the loop's
number of ticks (R166, R167). -/
theorem State.execRun_of_execLoop {ch : Chips} {mode : ExecMode} {e : Nat} {s t : State} {k : Nat}
    (h : s.closeConfig.execLoop ch mode (ticksFor e) = (t, k)) :
    s.execRun ch mode e = { t with kbd := t.kbd.advance s.params.kbdHoldUs e, result := .count k } := by
  have hp : t.params = s.params := by
    have hl := State.execLoop_params ch mode (ticksFor e) s.closeConfig
    rwa [h] at hl
  rw [State.execRun, h, ← hp]
  rfl

/-- Settles O48: the loop is the iterated tick, and TICK is one. -/
theorem execFreeRun : Obligations.ExecFreeRun := by
  intro s e hv n u
  have hloop : s.closeConfig.execLoop Config.chips .freeRun (ticksFor e) = (u, n) :=
    congrArg (·, n) (State.ticks_eq_iterate Config.chips n s.closeConfig)
  constructor
  · rw [exec_exec_admitted hv (mode := .freeRun) e nofun, State.execRun_of_execLoop hloop]
  · exact tickOp_valid _ hv

/-- The instrumented loop runs `k` turns, and stops before `n` only where the last turn's poll raised the flag. -/
theorem State.watchedTicks_eq_iterate (ch : Chips) (n : Nat) (s : State) :
    ∃ k, k ≤ n ∧ s.watchedTicks ch n = ((State.watchedTick ch)^[k] s, k) ∧
      (∀ j, 0 < j → j < k → stoppedAfter ((State.watchedTick ch)^[j] s) = false) ∧
      (k < n → 0 < k ∧ stoppedAfter ((State.watchedTick ch)^[k] s) = true) := by
  induction n generalizing s with
  | zero => exact ⟨0, Nat.le_refl 0, rfl, fun _ _ h => absurd h (Nat.not_lt_zero _), fun h => absurd h (Nat.lt_irrefl 0)⟩
  | succ n ih =>
    cases hs : stoppedAfter (s.watchedTick ch) with
    | true =>
      have hrun : s.watchedTicks ch (n + 1) = (s.watchedTick ch, 1) := by simp [State.watchedTicks, hs]
      exact ⟨1, by omega, hrun, fun j h0 h1 => absurd h1 (by omega), fun _ => ⟨Nat.one_pos, hs⟩⟩
    | false =>
      obtain ⟨k, hk, hrun, hclear, hstop⟩ := ih (s.watchedTick ch)
      have hrun' : s.watchedTicks ch (n + 1) = ((State.watchedTick ch)^[k + 1] s, k + 1) := by
        simp [State.watchedTicks, hs, hrun]
      refine ⟨k + 1, by omega, hrun', fun j h0 h1 => ?_, fun h => ⟨Nat.succ_pos k, (hstop (by omega)).2⟩⟩
      match j with
      | 1 => exact hs
      | j + 2 => exact hclear (j + 1) (Nat.succ_pos j) (by omega)

theorem exec_exec_noHook {s : State} (hv : s.valid = true) (e : Nat) (hd : s.params.debugHook = false) :
    exec (.exec .instrumented e) s = .next (s.refuse .noDebugHook) :=
  (operate_valid _ hv).trans (congrArg _ (if_pos ⟨rfl, hd⟩))

/-- Settles O49: the turn is the model's watched tick. -/
theorem execInstrumented : Obligations.ExecInstrumented := by
  intro s e hv n watched run
  refine ⟨fun hd => exec_exec_noHook hv e hd, fun hd => ?_⟩
  obtain ⟨k, hk, hloop, hclear, hstop⟩ := State.watchedTicks_eq_iterate Config.chips n s.closeConfig
  refine ⟨k, hk, ?_, hclear, hstop⟩
  rw [exec_exec_admitted hv e fun _ => hd]
  exact congrArg _ (State.execRun_of_execLoop (mode := .instrumented) hloop)

/-! ### No elapsed time (R168) -/

/-- Every cell of the matrix is the cell at a coordinate (R141). -/
theorem cellIndex_surjective (i : Fin 64) : ∃ x, cellIndex x = i := by
  refine ⟨{ col := BitVec.ofNat 3 (i.val / 8), row := BitVec.ofNat 3 (i.val % 8) }, Fin.ext ?_⟩
  simp only [cellIndex, BitVec.toNat_ofNat]
  omega

theorem Keyboard.ext_cell {k k' : Keyboard} (hc : ∀ x, k.cell x = k'.cell x) (hm : k.modCell = k'.modCell)
    (hk : k.keymap = k'.keymap) : k = k' := by
  have hcells : k.cells = k'.cells := by
    refine Vector.ext fun i hi => ?_
    obtain ⟨x, hx⟩ := cellIndex_surjective ⟨i, hi⟩
    simpa [Keyboard.cell, hx] using hc x
  cases k
  cases k'
  exact Keyboard.mk.injEq .. ▸ ⟨hcells, hm, hk⟩

/-- A release that is pending for a young cell stays pending while no time passes (R148). -/
theorem KeyCell.advance_zero {hold : Nat} {c : KeyCell} (h : c.pend = true → c.age < hold) : c.advance hold 0 = c := by
  unfold KeyCell.advance
  split
  · have hyoung : ¬ (c.pend && decide (hold ≤ c.age + 0)) = true := by
      simpa using h
    exact if_neg hyoung
  · rfl

theorem Keyboard.advance_zero {hold : Nat} {k : Keyboard} (h : ∀ x, (k.cell x).pend = true → (k.cell x).age < hold) :
    k.advance hold 0 = k :=
  Keyboard.ext_cell (fun x => (k.cell_advance hold 0 x).trans (KeyCell.advance_zero (h x))) rfl rfl

theorem ticksFor_eq_zero_iff (e : Nat) : ticksFor e = 0 ↔ e = 0 := by
  unfold ticksFor clockHz
  omega

theorem State.execLoop_zero (ch : Chips) (mode : ExecMode) (s : State) : s.execLoop ch mode 0 = (s, 0) := by
  cases mode <;> rfl

/-- Settles O50: no time is no turn, and leaves every cell as it was. -/
theorem execZero : Obligations.ExecZero := by
  refine ⟨fun s mode hinv hv hm => ?_, ticksFor_eq_zero_iff⟩
  have hloop : s.closeConfig.execLoop Config.chips mode (ticksFor 0) = (s.closeConfig, 0) := State.execLoop_zero ..
  have hkbd : s.closeConfig.kbd.advance s.params.kbdHoldUs 0 = s.kbd := Keyboard.advance_zero hinv.pendYoung
  rw [exec_exec_admitted hv 0 hm, State.execRun_of_execLoop hloop, hkbd]
  rfl

end Sys2Proof.Machine
end

section
/-! Construction with the ROM images loaded (43_host_operations.md R162; 10_state.md R21, R35) has the invariant. -/

namespace Sys2Proof.Machine

/-- An image written into a fitted bank stays inside the banks. -/
theorem Memory.writeRun_inBank {fitted : Vector Bool 4} {m : List Host.Cell} (hm : ∀ c ∈ m, KeyInBank fitted c.1) {b : Bank}
    (hb : b.present fitted = true) {vs : List Byte} (hv : vs.length ≤ b.size cartMax) :
    ∀ c ∈ Memory.writeRun m (cellKey b 0) vs, KeyInBank fitted c.1 := by
  intro c hc
  rcases Memory.mem_writeRun hc with ⟨hlo, hhi⟩ | hc
  · exact ⟨b, c.1 - cellKey b 0, hb, by omega, by unfold cellKey at *; omega⟩
  · exact hm c hc

theorem romMemory_wf (char basic kernal : List Byte) : Memory.wf (romMemory char basic kernal) := by
  have hempty : Memory.wf [] := ⟨List.Pairwise.nil, fun _ hc => absurd hc List.not_mem_nil⟩
  exact Memory.writeRun_wf _ _ (Memory.writeRun_wf _ _ (Memory.writeRun_wf _ _ hempty))

theorem romMemory_inBank (fitted : Vector Bool 4) {char basic kernal : List Byte} (hc : char.length = 0x1000)
    (hb : basic.length = 0x2000) (hk : kernal.length = 0x2000) :
    ∀ c ∈ romMemory char basic kernal, KeyInBank fitted c.1 := by
  have hempty : ∀ c ∈ ([] : List Host.Cell), KeyInBank fitted c.1 := fun _ h => absurd h List.not_mem_nil
  have hchar := Memory.writeRun_inBank hempty (b := .char) rfl (vs := char) hc.le
  have hbasic := Memory.writeRun_inBank hchar (b := .basic) rfl (vs := basic) hb.le
  exact Memory.writeRun_inBank hbasic (b := .kernal) rfl (vs := kernal) hk.le

theorem State.Inv.withMem {s : State} (h : s.Inv) {m : List Host.Cell} (hm : Memory.wf m)
    (hi : ∀ c ∈ m, KeyInBank s.params.expPresent c.1) : ({ s with mem := m } : State).Inv :=
  { h with memCanonical := hm, memInside := hi }

/-- What a construction that answers a state has checked, and the state it answers (R162, R187). -/
theorem construct_cases {c : Setup} {t : State} (h : construct c = .next t) :
    c.char.length = 0x1000 ∧ c.basic.length = 0x2000 ∧ c.kernal.length = 0x2000 ∧ (setupParams c).Admitted ∧
      t = { State.constructed (setupParams c) with mem := romMemory c.char c.basic c.kernal } := by
  unfold construct at h
  split_ifs at h with hsize haudio hdebug hjoy
  obtain ⟨hchar, hbasic, hkernal⟩ : c.char.length = 0x1000 ∧ c.basic.length = 0x2000 ∧ c.kernal.length = 0x2000 := by omega
  have hcap : (setupParams c).Admitted := by
    show 1 ≤ c.audioCap ∧ c.audioCap ≤ c.audioMax
    omega
  exact ⟨hchar, hbasic, hkernal, hcap, (Host.Outcome.next.inj h).symm⟩

/-- Settles O59: the sizes checked put the images inside their banks, and the capacity checked is an admitted one. -/
theorem constructedHasInvariant : Obligations.ConstructedHasInvariant := by
  intro c t h
  obtain ⟨hchar, hbasic, hkernal, hcap, rfl⟩ := construct_cases h
  exact (State.Inv.constructed hcap).withMem (romMemory_wf ..) (romMemory_inBank _ hchar hbasic hkernal)

end Sys2Proof.Machine
end

section
/-! VFETCH, and the end of the block's life (43_host_operations.md R161, R175, R176; 60_exceptions.md R188). -/

namespace Sys2Proof.Machine

/-- Settles O24: VFETCH is one fetch on its own. -/
theorem vfetchAnswers : Obligations.VfetchAnswers := fun _ _ hv => fetchAnswers_of_exec (operate_valid _ hv)

/-- Settles O52: DISCARD is the one update of the validity flag. -/
theorem discardInvalidates : Obligations.DiscardInvalidates :=
  fun _ hv => operate_valid (fun s => s.discard.answer .none) hv

/-- Every operation but the VF fetches asks for a valid block first (R161; log 21). -/
theorem exec_eq_operate {i : Instr} (hi : i.isFetch = false) : ∃ f, ∀ s, exec i s = operate f s := by
  cases i with
  | vfChar va | vfGap0 va | vfZp va | vfGap1A va | vfGap1B va | vfRam va => cases hi
  | _ => exact ⟨_, fun _ => rfl⟩

/-- Settles O53: on a discarded block such an operation is refused before it does anything. -/
theorem discardedBlockRefuses : Obligations.DiscardedBlockRefuses := by
  intro i s hv hi
  obtain ⟨f, hf⟩ := exec_eq_operate hi
  rw [hf, operate_invalid f hv]
  rfl

end Sys2Proof.Machine
end

section
/-! What construction answers for each configuration (43_host_operations.md R162, 60_exceptions.md R187, 42_keyboard.md R154):
one lemma per check that the configuration passes, each leaving the checks after it. -/

namespace Sys2Proof.Machine

/-- The ROM images have their exact sizes (R21). -/
abbrev Setup.SizesOk (c : Setup) : Prop := c.char.length = 0x1000 ∧ c.basic.length = 0x2000 ∧ c.kernal.length = 0x2000

/-- The audio capacity is a possible one (R7). -/
abbrev Setup.AudioOk (c : Setup) : Prop := c.audioCap ≤ c.audioMax ∧ c.audioCap ≠ 0

/-- A debug callback comes with a stop flag (R187). -/
abbrev Setup.DebugOk (c : Setup) : Prop := c.debugCb = true → c.stopFlag = true

/-- The state that construction answers once every check is passed. -/
def Setup.built (c : Setup) : State :=
  { State.constructed (setupParams c) with mem := romMemory c.char c.basic c.kernal }

theorem construct_of_sizesOk {c : Setup} (hs : c.SizesOk) :
    construct c = if c.audioMax < c.audioCap ∨ c.audioCap = 0 then .fault .audioCap
      else if c.debugCb = true ∧ c.stopFlag = false then .fault .debugStop
      else if c.joystick then .refused .joystick else .next c.built :=
  if_neg (by omega)

theorem construct_of_audioOk {c : Setup} (hs : c.SizesOk) (ha : c.AudioOk) :
    construct c = if c.debugCb = true ∧ c.stopFlag = false then .fault .debugStop
      else if c.joystick then .refused .joystick else .next c.built := by
  rw [construct_of_sizesOk hs, if_neg (by omega)]

theorem construct_of_debugOk {c : Setup} (hs : c.SizesOk) (ha : c.AudioOk) (hd : c.DebugOk) :
    construct c = if c.joystick then .refused .joystick else .next c.built := by
  rw [construct_of_audioOk hs ha, if_neg (by simpa using hd)]

/-- KBD_HOLD_US is the given one, and 0 where none is given. -/
theorem setupParams_eq (c : Setup) : setupParams c = {
    vicSel := c.vicSel, expPresent := c.expPresent, kbdHoldUs := match c.kbdHoldUs with | some u => u | none => 0,
    sampleRate := c.sampleRate, volume := c.volume, audioCap := c.audioCap, audioMax := c.audioMax,
    debugHook := c.debugCb, pinReset := c.pinReset } := by
  unfold setupParams
  cases c.kbdHoldUs <;> rfl

/-- The ROM banks of the constructed state hold the images. -/
theorem Setup.built_bankByte {c : Setup} (hs : c.SizesOk) :
    (∀ k, k < 0x1000 → c.built.bankByte .char k = c.char.getD k 0) ∧
    (∀ k, k < 0x2000 → c.built.bankByte .basic k = c.basic.getD k 0) ∧
    (∀ k, k < 0x2000 → c.built.bankByte .kernal k = c.kernal.getD k 0) := by
  obtain ⟨hchar, hbasic, hkernal⟩ := hs
  have hmax : cartMax = 0x2000 := rfl
  obtain ⟨readChar, readBasic, readKernal⟩ := romMemory_read (char := c.char) (basic := c.basic) (kernal := c.kernal)
    (by omega) (by omega) (by omega)
  exact ⟨fun k hk => readChar k (by omega), fun k hk => readBasic k (by omega), fun k hk => readKernal k (by omega)⟩

/-- Settles O55: the checks in order, each of them the first that fails, and the constructed state once none does. -/
theorem constructionOutcomes : Obligations.ConstructionOutcomes := by
  intro c sizes audio debug
  refine ⟨fun hs => ?_, fun hs ha => ?_, fun hs ha hd => ?_, fun hs ha hd hj => ?_, fun hs ha hd hj => ?_⟩
  · have hwrong : ¬ c.SizesOk := hs
    exact if_pos (by omega)
  · have hwrong : ¬ c.AudioOk := ha
    rw [construct_of_sizesOk hs, if_pos (by omega)]
  · have hwrong : ¬ c.DebugOk := hd
    rw [construct_of_audioOk hs ha, if_pos (by simpa using hwrong)]
  · rw [construct_of_debugOk hs ha hd, if_pos hj]
  · rw [construct_of_debugOk hs ha hd, if_neg (by simp [hj])]
    exact ⟨c.built, rfl, rfl, setupParams_eq c, Setup.built_bankByte hs⟩

end Sys2Proof.Machine
end

section
/-! RESET of a valid block (70_reset_and_hazards.md R201, R202). -/

namespace Sys2Proof.Machine

/-- On a valid block RESET is `State.resetBlock` with the chips of the machine, and answers nothing. -/
theorem exec_reset {s : State} (hv : s.valid = true) :
    exec .reset s = .next ((s.resetBlock Config.chips).answer .none) :=
  operate_valid (fun s => (s.resetBlock Config.chips).answer .none) hv

/-- Settles O51: `State.resetBlock` names every field that RESET changes, and `pinsAtReset` the pins. -/
theorem resetRestarts : Obligations.ResetRestarts := fun _ hv => exec_reset hv

end Sys2Proof.Machine
end
